-- ==== Sys2Proof/Word.lean ====
section
/-! DEFINITION. The word types of the OL9640 model (R11: fields are little-endian, bit 0 least significant). -/
namespace Sys2Proof

/-- One byte of a packet, a mailbox, a memory or a record. -/
abbrev Byte := BitVec 8

/-- A 64-bit register, packet field or engine bundle (R50, R330, R419). -/
abbrev W64 := BitVec 64

/-- A 32-bit engine data register (Table 11-1). -/
abbrev W32 := BitVec 32

/-- A complex sample: I and Q (R131, R169). -/
abbrev IQ := Int × Int

end Sys2Proof
end

