-- ==== Sys2Proof/Syntax.lean ====
section
/-! DEFINITION. The commands of the OL9640: one constructor of `Instr` per row of the opcode table, with the
operands the spec gives the row. What a command learns from outside the device (a sample code, a count window, a DMA
completion, a drive's answer) is an operand; what the device already holds is read from its state. -/
namespace Sys2Proof

/-- Where a command packet came from (R64): the command ring, the SPI mailbox or the SMBus mailbox. -/
inductive Source where
  | ring | spi | smbus
  deriving DecidableEq, Repr

/-- One of the two mailboxes (R84). -/
inductive Mbx where
  | spi | smbus
  deriving DecidableEq, Repr

/-- A destination of event entries (R73): the event ring or a mailbox FIFO. -/
inductive Dest where
  | ring | spi | smbus
  deriving DecidableEq, Repr

/-- A command packet as the stage manager reads it (Table 2-4). The opcode is that of the command's constructor;
`len` is the header's length field, `payload` the bytes that follow the header, padding left out. -/
structure Packet where
  src     : Source
  flags   : BitVec 8
  slots   : BitVec 8
  tag     : BitVec 16
  inst    : BitVec 16
  len     : BitVec 32
  check   : BitVec 32
  payload : List Byte
  deriving DecidableEq, Repr

/-- The register spaces a host or board controller writes directly: BAR0 (R414, R419), the ring window (R425), a mailbox
map (R84), one transaction of the management SPI slave as its bytes stand on the wire (R87), and Message Control of the
MSI-X capability, which holds the function mask (R422). With the last two the access is a read of as many bytes as it
carries, of BAR0 or of the ring window. -/
inductive RegSpace where
  | window | ringWindow | mailbox (m : Mbx) | spiWire | msixControl | barRead | ringRead
  deriving DecidableEq, Repr

/-- What a DMA fetch of a direct user delivered (R427, R434): the bytes, or the status that halted the channel. -/
inductive Fetched where
  | bytes (bs : List Byte)
  | halted (status : Nat)
  deriving DecidableEq, Repr

/-- The outcome of verifying one image slot (R554): the header fields that the device keeps of a verified image. -/
structure SlotImage where
  version  : Nat
  rollback : Nat
  deriving DecidableEq, Repr

/-- What the ROM and the training find at RST_N release (R96, R97, R88). `none` for a slot: it does not verify. -/
structure BootFacts where
  slotA     : Option SlotImage
  slotB     : Option SlotImage
  mgmtAddr  : Nat
  refinHz   : Nat            -- REFIN as measured for the 1 ms before selection; 0 without edges (R151)
  xoHz      : Nat            -- the oscillation of XO; 0 where it does not oscillate (R150)
  deriving DecidableEq, Repr

/-- One HBM stack's training at boot (R97, R410): 0 trained, 1 trained at the second attempt, 2 failed twice; with
the count of remapped DQ lanes. -/
structure StackTraining where
  result   : Nat
  repaired : Nat
  deriving DecidableEq, Repr

/-- What an NVMe port answers at a mount (R273, R290): a drive or none; its LBA size, whether its namespace has metadata or
protection, its capacity and largest transfer in bytes; and blocks 0 and 1 as read, empty where they cannot be. -/
structure PortFacts where
  present  : Bool
  failing  : Bool
  lba      : Nat
  extras   : Bool
  capacity : Nat
  mdts     : Nat
  superA   : List (BitVec 8)
  superB   : List (BitVec 8)
  deriving DecidableEq, Repr

/-- What the mount reads of an extent that the journal leaves PENDING (R290): its serial and its blocks in order, empty
where one cannot be read. -/
structure ExtentCheck where
  serial : Nat
  blocks : List (List (BitVec 8))
  deriving DecidableEq, Repr

/-- The facts of a mount (R290, R291): the ports, the checked extents, the damage ranges of reason 3 whose blocks are all
valid again (record number and first block), and the newest header of each record, as catalogue and journal give it: read
where the drives do not stand as this device left them. -/
structure MountFacts where
  ports     : List PortFacts
  extents   : List ExtentCheck
  recovered : List (Nat × Nat)
  headers   : List (List (BitVec 8))
  deriving DecidableEq, Repr

/-- A gap marker (Table 1-6). -/
structure GapMarker where
  source   : Nat
  reason   : Nat
  paired   : Bool
  first    : Nat
  last     : Nat
  sequence : Nat
  deriving DecidableEq, Repr

/-- What a device learns of its peer with a heartbeat (R499): role, synchronisation, mode code (Table 3-1), whether a
channel runs, whether PPS_IN is qualified there, and why it last lost synchronisation (Table 18-8; 0: it has not since it
gained it). `broken`: the message that arrives, of whatever type, fails its CRC-32C. -/
structure PeerFacts where
  sync    : Bool
  role    : Nat
  mode    : Nat
  running : Bool
  ppsQual : Bool
  lost    : Nat := 0
  broken  : Bool := false
  deriving DecidableEq, Repr

/-- A check extent (R514): codes and bits of 65,536 samples; the coefficient sets in force at its first ordinal and the
updates within it, by converter; the phase of each zoom at the first conditioned index; the digests, by source code. -/
structure CheckFacts where
  codes    : List (BitVec 12)
  flags    : List Bool
  coefs    : List (Nat × List Byte)
  updates  : List (Nat × Nat × List Byte)     -- ordinal, converter, set
  phases   : List (Nat × Nat)
  digests  : List (Nat × Nat)
  poison   : Bool
  capacity : Bool                             -- the check path and the transform units can make the check
  deriving DecidableEq, Repr

/-- A part of the configuration that an IMAGE message delivers (R522): parameters, by id × 65,536 + instance, or a table
in the payload form of the command that loads it. -/
inductive ImagePart where
  | params (l : List (Nat × Nat))
  | table (opcode inst : Nat) (bytes : List Byte)
  deriving DecidableEq, Repr

/-- What a step boundary of a long operation reports from the units the operation works on (R79). -/
inductive StepFacts where
  | done                                        -- the unit of work completed
  | failed (status : Nat)                       -- it failed with this status (Table 2-15)
  | coefficients (sets : List (Nat × List Byte))-- CALIBRATE_CONVERTERS: the measured set of each channel (R128); REPLAY: a CAL item
  | test (failures : List (Nat × Nat))          -- SELF_TEST: failing units as (kind, instance) (R552)
  | sector (bytes : List Byte)                  -- FW_UPDATE: a fetched flash sector (R557)
  | verified (good : Bool)                      -- FW_UPDATE: the read-back is whole, its signature and digest hold (R554, R557)
  | item (bytes : List Byte)                    -- STORE_EXPORT: the block or item read (R295)
  | sample (code : BitVec 12) (flag : Bool)     -- REPLAY: the next stored sample and its bit of R271 (R296)
  | range (fs : Nat) (lastStl : Nat)            -- REPLAY: a RANGE marker: the setting, the last ordinal of its window (Table 9-4)
  | marker (m : GapMarker)                      -- REPLAY: a gap marker of the record
  | monitors (rho : List (Nat × Nat))           -- MARGIN_REPLAN: unit monitor factors, 2^-14, by monitor number (R483)
  | regulated                                   -- MARGIN_REPLAN: the raised region is in regulation and read again
  deriving DecidableEq, Repr

/-- What a producer of R18 is: a main channel, the auxiliary converter or a time-interval input. -/
inductive Producer where
  | channel (c : Fin 4)
  | aux
  | tiu (i : Fin 32)
  deriving DecidableEq, Repr

/-- A block that takes gap markers from its source (R26, R187, R207). -/
inductive Block where
  | zoom (z : Fin 32)
  | stream (n : Fin 16)
  deriving DecidableEq, Repr

/-- A raw interpolator reading of an edge (R464): coarse count, reading, the two calibration readings and the factory
value of their difference. -/
structure RawStamp where
  coarse  : Nat
  r       : Nat
  r1      : Nat
  r2      : Nat
  factory : Nat
  lastR1  : Nat            -- the last good calibration
  lastR2  : Nat
  deriving DecidableEq, Repr

/-- One request as a port hands it to a pseudo-channel (R394, R398). -/
structure HbmReq where
  port  : Nat
  addr  : Nat
  write : Bool
  data  : List Byte        -- write data, from `addr`
  len   : Nat
  age   : Nat              -- ns elapsed since it arrived
  target : Nat             -- `hbm.target` in force when it arrived (R394)
  deriving DecidableEq, Repr

/-- What the SECDED check of a read line found (R405). -/
inductive Ecc where
  | clean | single | uncorrectable
  deriving DecidableEq, Repr

/-- The PMBus answers of one poll of a regulator (R478). -/
structure PmbusFacts where
  responded : Bool
  fault     : Bool
  uvWarn    : Bool
  vout      : Nat          -- mV
  iout      : Nat          -- 10 mA
  temp      : Int          -- 0.1 C
  status    : Nat          -- STATUS_WORD
  deriving DecidableEq, Repr

/-- The sink's answer to DPCD reading and link training (R314). -/
structure SinkFacts where
  lanes : Nat
  rate  : Nat
  deriving DecidableEq, Repr

/-- A command of the OL9640: one constructor per row of the opcode table. An operand with a default stands last, and its
meaning takes it after the state; the default is the plain case of the row. -/
inductive Instr where
  -- packets of classes 0x00-0x02 (chapter 2)
  | inventory (p : Packet)
  | getParam (p : Packet)
  | setParam (p : Packet)
  | setMode (p : Packet)
  | start (p : Packet)
  | stop (p : Packet)
  | queryOp (p : Packet)
  | suspendOp (p : Packet)
  | resumeOp (p : Packet)
  | cancelOp (p : Packet)
  | clearEvents (p : Packet)
  | errlogRead (p : Packet)
  | errlogClear (p : Packet)
  -- class 0x04, 0x05
  | convCalRead (p : Packet)
  | convCalLoad (p : Packet)
  | calibrateConverters (p : Packet)
  | clkSetTime (p : Packet)
  -- class 0x07, 0x08
  | xfWindowLoad (p : Packet)
  | xfWindowRead (p : Packet)
  | cueLoad (p : Packet)
  | cueTask (p : Packet)
  | maskLoad (p : Packet)
  | maskSwap (p : Packet)
  | cueHost (p : Packet)
  | cueRead (p : Packet)
  | maskRead (p : Packet)
  -- class 0x09, 0x0A
  | capArm (p : Packet)
  | capDisarm (p : Packet)
  | storeFormat (p : Packet)
  | storeExport (p : Packet)
  | replay (p : Packet)
  | storeMount (p : Packet) (f : MountFacts)
  | storeUnmount (p : Packet)
  | storeList (p : Packet)
  | storeDelete (p : Packet)
  -- class 0x0B
  | duPaletteLoad (p : Packet)
  | duPaletteSwap (p : Packet)
  | duClear (p : Packet)
  | duMapLoad (p : Packet)
  | duLatticeRead (p : Packet)
  | dispClutLoad (p : Packet)
  | dispEdidRead (p : Packet) (edid : List Byte)
  -- class 0x0C
  | aeFaultRead (p : Packet)
  | aeResume (p : Packet)
  | aeLoad (p : Packet) (image : Fetched)
  | aeStart (p : Packet)
  | aeStop (p : Packet)
  | aeSignal (p : Packet)
  -- class 0x0D, 0x0E, 0x10, 0x11
  | hbmRehash (p : Packet)
  | scrubFull (p : Packet)
  | dmaChain (p : Packet)
  | dmaStop (p : Packet)
  | dmaCopy (p : Packet) (data : Fetched)
  | tiuAnchorRead (p : Packet)
  | marginReplan (p : Packet)
  | hmAgeingRead (p : Packet)
  -- class 0x12, 0x13, 0x14
  | pairResync (p : Packet)
  | pairAlign (p : Packet)
  | selfTest (p : Packet)
  | dbgChallenge (p : Packet)
  | dbgUnlock (p : Packet)
  | keyGenerate (p : Packet)
  | keyImport (p : Packet)
  | keyErase (p : Packet)
  | keyImportPubkey (p : Packet)
  | fwUpdate (p : Packet)
  | fwCommit (p : Packet)
  -- rings, mailboxes and the control window
  | cmdDoorbell (v : W64) (undefined : Option (BitVec 16 × Packet) := none)   -- the packet then found at CMD_HEAD, where its opcode is no row's (R61)
  | cmdResync
  | cmdEn (v : Bool)
  | rplEn (v : Bool)
  | evtEn (v : Bool)
  | rplHead (v : W64)
  | evtHead (v : W64)
  | registerWrite (sp : RegSpace) (addr : Nat) (bytes : List Byte)
  | heldReplyPosted
  | eventsLost (d : Dest)
  | go (m : Mbx) (ack : Bool)
  | rplAck (m : Mbx)
  | evtWindowRemove (m : Mbx)
  | smbusWriteWord (addr : BitVec 16) (pecBad : Bool) (dev : BitVec 7 := 0x58) (code : Byte := 0x01)
  | smbusBlockTransfer (write : Bool) (bytes : List Byte) (count : Nat) (pecBad : Bool) (dev : BitVec 7 := 0x58) (code : Byte := 0x02)
  | dmaKick (mask : BitVec 32)
  | busMasterEnable (v : Bool)
  -- resets, power, pins and modes
  | rstNAssert
  | rstNRelease (f : BootFacts)
  | bootComplete (hbmStacks : List StackTraining) (timeMs : Nat) (m : MountFacts) (gauges : List Nat)
      (monitors : List (Nat × Nat))
  | powerLoss
  | watchdogReset
  | hostLinkReset (cause : Fin 3)
  | hostLinkTrained (gen : Nat) (width : Nat) (flit : Bool)
  | clrNFall
  | clrNRise
  | wakeBall
  | wakeTimerExpiry
  | modeChanged
  | cuePointApply
  | opStepBoundary (handle : Nat) (f : StepFacts)
  -- clocks
  | refinLost (windowHz : Option Nat := none)
  | refinQualified (hz : Nat)
  | xoLost (hz : Nat := 0)
  | xoPresent (hz : Nat := 100000000)
  | clkLock (pll : Fin 4) (diff : Int)
  | ppsEdge (intervalNs : Nat) (st : RawStamp) (elapsedS : Nat) (sinceSetNs : Nat := 10000000)
  | ppsLost
  | pgPulse (g : Fin 2) (late : Bool)
  | trgOutPulse (o : Fin 4) (late : Bool)
  | pdacUpdate (d : Fin 8) (late : Bool)
  | pdacCompliance (d : Fin 8) (reading : Int)
  -- producers, gaps, converters, zooms, streams
  | producerBufferFull (p : Producer) (first : Nat)
  | gap (p : Producer) (resume : Nat)
  | gapMarkerReceived (b : Block) (m : GapMarker)
  | heldEventWindowEnd (code : BitVec 16) (inst : BitVec 16)
  | convLos (c : Fin 4)
  | bgcalUpdate (c : Fin 4)
  | convCalStale (c : Fin 4) (fs : Fin 4)
  | zoomBlock (z : Fin 32)
  | frameRecord (n : Fin 16)
  -- cue sheets, capture, store
  | itemRehearse
  | sheetPlay (n : Nat)
  | cueTimeout (sheet : Fin 8)
  | cueTimerTick (t : Fin 8)
  | recordRollover (u : Fin 16)
  | rateStepDecision (below25For1s : Bool)
  | captureRateStep (u : Fin 16)
  | extentClose (u : Fin 16)
  | extentWriteCompletion (serial : Nat) (copy : Fin 2)
  | storeWriteFailed (serial : Nat) (copy : Fin 2) (reason : Fin 4) (thirdIn10s : Bool)
  | storeMemberLost (m : Fin 8)
  | journalWrite
  | checkpoint
  -- density and display
  | fedFrame (u : Fin 4)
  | frameStart (o : Fin 3)
  | hpdPlug (o : Fin 2) (sink : SinkFacts)
  | hpdUnplug (o : Fin 2)
  | irqHpd (o : Fin 2) (linkOk : Bool) (sink : SinkFacts)
  -- auxiliary, comparators, time-interval unit
  | auxSlotResult (codes : List Int) (overload : Bool) (checkCodes : List Int)
  | cmpCrossing (n : Fin 16) (microVolts : Int) (st : RawStamp) (fast : Bool)
  | evEdge (i : Fin 32) (rising : Bool) (st : RawStamp) (sinceLastPs : Nat)
  -- health
  | gaugeReading (factors : List Nat)
  | shedLevelEntry (q : Fin 4) (level : Fin 5) (deviation : Int)
  | shedLevelRecovery (deviations : List Int)
  | ioRailWarning (region : Option (Fin 4))
  | thermalTrip
  | thermalWarn (q : Fin 4) (tempDeci : Int)
  | regionSkew (lower : Fin 4) (voltage : Bool) (temperature : Bool)
  | pmbusPoll (q : Fin 4) (f : PmbusFacts)
  | regulationReached (q : Fin 4) (reached : Bool)
  | replanAutoStart (scheduled : Bool)
  | ageingEntry
  | lifeMinute (tjDeci : Int)
  | aliveCount
  | unitErrorDetected (code : BitVec 16) (kind : BitVec 8) (inst : BitVec 16) (detail : W64)
  | errorRecovery
  -- HBM controller
  | hbmRequest (pc : Fin 128) (arrivals : List HbmReq) (elapsedNs : Nat) (ecc : Ecc)
  | rowIdleClose (bank : Nat)
  | scrubLine (ecc : Ecc) (awaited : Bool) (overtaken : Bool)
  | bankImbalance
  | eyeRecentre (stack : Fin 4)
  | selfRefreshEntry (stack : Fin 4)
  | selfRefreshExit (stack : Fin 4)
  -- DMA
  | descriptorFetch (c : Fin 32) (d : Fetched)
  | descriptorRepoll (c : Fin 32) (d : Fetched)
  | descriptorComplete (c : Fin 32)
  | dmaFlushTimeout (c : Fin 32)
  -- engines: stores, signals and I/O
  | storeBufferDrain (e : Fin 256)
  | signalTaken (e : Fin 256)
  | loadDataArrival (e : Fin 256)
  | mbData (e : Fin 256)
  | ipData (e : Fin 256)
  | opData (e : Fin 256)
  | opEnd (e : Fin 256)
  | sigsend (e : Fin 256)
  -- engine bundles: arithmetic slot (Table 11-7)
  | nop (e : Fin 256)
  | dmac (e : Fin 256) (a b : BitVec 5) (c : BitVec 3)
  | qmac (e : Fin 256) (a b : BitVec 5) (c : BitVec 3)
  | rmac (e : Fin 256) (a b : BitVec 5) (c : BitVec 3)
  | accrd (e : Fin 256) (a b : BitVec 5) (c : BitVec 3)
  | accrd18 (e : Fin 256) (a b : BitVec 5) (c : BitVec 3)
  | accld (e : Fin 256) (a b : BitVec 5) (c : BitVec 3)
  | accclr (e : Fin 256) (a b : BitVec 5) (c : BitVec 3)
  | add (e : Fin 256) (a b : BitVec 5) (c : BitVec 3)
  | adds (e : Fin 256) (a b : BitVec 5) (c : BitVec 3)
  | sub (e : Fin 256) (a b : BitVec 5) (c : BitVec 3)
  | subs (e : Fin 256) (a b : BitVec 5) (c : BitVec 3)
  | and (e : Fin 256) (a b : BitVec 5) (c : BitVec 3)
  | or (e : Fin 256) (a b : BitVec 5) (c : BitVec 3)
  | xor (e : Fin 256) (a b : BitVec 5) (c : BitVec 3)
  | mov (e : Fin 256) (a b : BitVec 5) (c : BitVec 3)
  | shli (e : Fin 256) (a b : BitVec 5) (c : BitVec 3)
  | shri (e : Fin 256) (a b : BitVec 5) (c : BitVec 3)
  | sari (e : Fin 256) (a b : BitVec 5) (c : BitVec 3)
  | rndi (e : Fin 256) (a b : BitVec 5) (c : BitVec 3)
  | sat18i (e : Fin 256) (a b : BitVec 5) (c : BitVec 3)
  | cmp (e : Fin 256) (a b : BitVec 5) (c : BitVec 3)
  | cmpu (e : Fin 256) (a b : BitVec 5) (c : BitVec 3)
  | min (e : Fin 256) (a b : BitVec 5) (c : BitVec 3)
  | max (e : Fin 256) (a b : BitVec 5) (c : BitVec 3)
  | abs (e : Fin 256) (a b : BitVec 5) (c : BitVec 3)
  | neg (e : Fin 256) (a b : BitVec 5) (c : BitVec 3)
  | pack16 (e : Fin 256) (a b : BitVec 5) (c : BitVec 3)
  | addi (e : Fin 256) (a b : BitVec 5) (c : BitVec 3)
  | movi (e : Fin 256) (a b : BitVec 5) (c : BitVec 3)
  -- load/store slot (Table 11-8)
  | ldw (e : Fin 256) (d : BitVec 5) (a m : BitVec 3) (am : BitVec 2)
  | ldh (e : Fin 256) (d : BitVec 5) (a m : BitVec 3) (am : BitVec 2)
  | ldhu (e : Fin 256) (d : BitVec 5) (a m : BitVec 3) (am : BitVec 2)
  | ldt (e : Fin 256) (d : BitVec 5) (a m : BitVec 3) (am : BitVec 2)
  | ldp (e : Fin 256) (d : BitVec 5) (a m : BitVec 3) (am : BitVec 2)
  | ldc16 (e : Fin 256) (d : BitVec 5) (a m : BitVec 3) (am : BitVec 2)
  | ldc24 (e : Fin 256) (d : BitVec 5) (a m : BitVec 3) (am : BitVec 2)
  | stw (e : Fin 256) (d : BitVec 5) (a m : BitVec 3) (am : BitVec 2)
  | sth (e : Fin 256) (d : BitVec 5) (a m : BitVec 3) (am : BitVec 2)
  | stt (e : Fin 256) (d : BitVec 5) (a m : BitVec 3) (am : BitVec 2)
  | stp (e : Fin 256) (d : BitVec 5) (a m : BitVec 3) (am : BitVec 2)
  | stc16 (e : Fin 256) (d : BitVec 5) (a m : BitVec 3) (am : BitVec 2)
  | gather (e : Fin 256) (d : BitVec 5) (a m : BitVec 3) (am : BitVec 2)
  | pref (e : Fin 256) (d : BitVec 5) (a m : BitVec 3) (am : BitVec 2)
  | cadds (e : Fin 256) (d : BitVec 5) (a m : BitVec 3) (am : BitVec 2)
  | cmax (e : Fin 256) (d : BitVec 5) (a m : BitVec 3) (am : BitVec 2)
  | cmin (e : Fin 256) (d : BitVec 5) (a m : BitVec 3) (am : BitVec 2)
  | cor (e : Fin 256) (d : BitVec 5) (a m : BitVec 3) (am : BitVec 2)
  -- address slot (R337)
  | adda (e : Fin 256) (a m : BitVec 3)
  | suba (e : Fin 256) (a m : BitVec 3)
  | cira (e : Fin 256) (a m : BitVec 3)
  -- control slot (Table 11-9)
  | br (e : Fin 256) (x : BitVec 13)
  | bz (e : Fin 256) (x : BitVec 13)
  | bnz (e : Fin 256) (x : BitVec 13)
  | bn (e : Fin 256) (x : BitVec 13)
  | bnn (e : Fin 256) (x : BitVec 13)
  | blc (e : Fin 256) (x : BitVec 13)
  | jal (e : Fin 256) (x : BitVec 13)
  | jr (e : Fin 256) (x : BitVec 13)
  | rets (e : Fin 256) (x : BitVec 13)
  | rete (e : Fin 256) (x : BitVec 13)
  | halt (e : Fin 256) (x : BitVec 13)
  | safept (e : Fin 256) (x : BitVec 13)
  | sigwait (e : Fin 256) (x : BitVec 13)
  | evt (e : Fin 256) (x : BitVec 13)
  | wmark (e : Fin 256) (x : BitVec 13)
  | gets (e : Fin 256) (x : BitVec 13)
  | puts (e : Fin 256) (x : BitVec 13)
  | mova (e : Fin 256) (x : BitVec 13)
  | movad (e : Fin 256) (x : BitVec 13)
  | movm (e : Fin 256) (x : BitVec 13)
  | fence (e : Fin 256) (x : BitVec 13)
  | brk (e : Fin 256) (x : BitVec 13)
  -- long bundles (Table 11-10)
  | repeatN (e : Fin 256) (r : BitVec 5) (imm : BitVec 48)
  | ldiD (e : Fin 256) (r : BitVec 5) (imm : BitVec 48)
  | ldiA (e : Fin 256) (r : BitVec 5) (imm : BitVec 48)
  | ldiM (e : Fin 256) (r : BitVec 5) (imm : BitVec 48)
  | ldiB (e : Fin 256) (r : BitVec 5) (imm : BitVec 48)
  | ldiL (e : Fin 256) (r : BitVec 5) (imm : BitVec 48)
  | ldiLC (e : Fin 256) (r : BitVec 5) (imm : BitVec 48)
  -- test access port (R550)
  | extest (shift : List Bool)
  | samplePreload (shift : List Bool)
  | idcode (shift : List Bool)
  | highz (shift : List Bool)
  | clamp (shift : List Bool)
  | extestPulse (shift : List Bool)
  | extestTrain (shift : List Bool)
  | dbgAccess (shift : List Bool)
  | bypass (shift : List Bool)
  | testLogicReset
  -- redundant pair
  | aliveToggle
  | peerAliveStopped
  | heartbeat (peer : Option PeerFacts)
  | heartbeatLost
  | promote
  | pairLinkUp (lanes : Nat) (peerRole : Nat) (peerTerm : Nat) (peerSerial : Nat)
  | laneDrop
  | cueItem (sheet : Fin 8) (cue : Fin 16) (ord : Nat)
  | config (opcode : Nat) (leadStatus : Nat) (p : Packet) (data : Fetched)
  | rateStep (u : Fin 16) (down : Bool) (sigma : Nat)
  | journalHead (offsets : List (Nat × Nat))
  | align (mine : Bool) (mean : Int)
  | pairAligned
  | checkExtent (c : Fin 4) (x : Nat) (e : CheckFacts)
  | verdict (leadPass : Bool) (understudyPass : Bool)
  | image (part : ImagePart)
  -- samples, scan-out, refresh, timeouts and links
  | sampleWord (c : Fin 4) (code : BitVec 12) (ovr : Bool)
  | scanInstant (o : Fin 3) (fetched : Option (List W32)) (poison : Bool)
  | bankRefresh (bank : Nat)
  | completionTimeout (c : Fin 32)
  | irqHoldoffExpiry (vector : Fin 2)
  | powerOnMonitorRelease (f : BootFacts)
  | peerAliveEdge
  | pairLinkDown
  | hostLinkRetrain (gen : Nat) (width : Nat) (flit : Bool)
  | safeptDeadline (e : Fin 256)
  deriving DecidableEq, Repr

end Sys2Proof
end

