-- ==== Sys2Proof/Config.lean ====
section
/-! DEFINITION. What the spec leaves to files that ship beside it, to fuses, or open: opaque constants. Nothing in Lean
can evaluate one, so a claim about the model holds whatever they are. -/
namespace Sys2Proof

/-- Free values, by number: the instants, random numbers and orders that the spec leaves to timing. A step takes the
next one and advances `State.fresh`. -/
opaque Config.free : Nat → Nat

/-- Section HB47 of OL9640_ZOOM_COEF_v1.txt (R130, R178): the coefficient at a tap offset. -/
opaque Config.hb47 : Int → Int

/-- Sections A to F of the same file (Table 6-1): filter code 0 to 5, tap offset. -/
opaque Config.halfBand : Nat → Int → Int

/-- Section RESAMPLE of the same file (R183): phase 0 to 255, tap 0 to 31. -/
opaque Config.resample : Nat → Nat → Int

/-- The binary point of the file's 18-bit coefficients: a coefficient counts in 2^-coefPoint. -/
opaque Config.coefPoint : Nat

/-- The equaliser of the paired path (R139), on the latest corrected samples, newest first. -/
opaque Config.equalise : List Int → Int

/-- Background statistics of a block (R125): the statistics so far; whether the sample is the paired converter's (R140); the
setting in force; the sub-converter; the code. -/
opaque Config.bgGather : Nat → Bool → Nat → Nat → Int → Nat

/-- The routine `bgcal_update` of OL9640_XFORM_REF_v1.zip (R125): the set in force as numbers (offsets, gains, skews,
pair skew), the statistics, the settings updated; the new set in the same order. -/
opaque Config.bgcalUpdate : List Int → Nat → List Nat → List Int

/-- What the reference file computes of a window (R204): KAISER, GAUSS, and what an unsigned word holds of a cosine sum below
zero; by code, length, β, α, index. -/
opaque Config.window : Nat → Nat → Nat → Nat → Nat → Nat

/-- The values X[p] of R201 as the reference model computes them: window coefficients and inputs of a frame, position; real
and imaginary part in 2^-256. -/
opaque Config.xformValue : List Nat → List (Int × Int) → Nat → Int × Int

/-- The mean of |X|² over the frames of an AVG trace as the reference model forms it (R211), in 2^-512. -/
opaque Config.meanPower : List Nat → Nat

/-- AES-256-XTS under the key of an identifier, with a 128-bit tweak, of one data unit (R279). -/
opaque Config.aesXts : Nat → Nat → List Byte → List Byte

/-- Its inverse. -/
opaque Config.aesXtsInv : Nat → Nat → List Byte → List Byte

/-- Whether an ECDSA P-384 signature verifies under a fused key: key index, signed bytes, signature (R558, R561). -/
opaque Config.verify : Nat → List Byte → List Byte → Bool

/-- Whether the key unwrap of a blob passes its integrity check (R561). -/
opaque Config.unwraps : List Byte → Bool

/-- The X and Y coordinates of the device's import public key (R562). -/
opaque Config.importKey : List Byte

/-- The fused reference period ratio of the life weight above 105 C: 2^16 × 2^((Tj - 105)/10), by Tj in 0.1 C (R490). -/
opaque Config.lifeWeight : Int → Nat

/-- What RNDI with b = 0 leaves, of the register's value: Table 11-7 states results for b from 1 to 31 alone. -/
opaque Config.rndiZero : Nat → Nat

/-- The bytes that a digest of R514 covers, of values and flags: the manual gives its CRC-64, not the bytes that spell a value. -/
opaque Config.digestBytes : List Int → List Byte

end Sys2Proof
end

