-- ==== Sys2Proof/Machine/Bits.lean ====
section
/-! DEFINITION. Byte order, signed fields, saturation, rounding and the checks CRC-32C (R57). -/
namespace Sys2Proof.Machine

/-- The low `n` bytes of a number, least significant first (R11). -/
def leBytes : Nat → Nat → List Byte
  | 0, _ => []
  | n + 1, w => BitVec.ofNat 8 w :: leBytes n (w / 256)

/-- The number that bytes spell, least significant first (R11). -/
def leNat : List Byte → Nat
  | [] => 0
  | b :: bs => b.toNat + 256 * leNat bs

/-- Bytes `off` to `off + n - 1` of a payload, as a number. -/
def fld (p : List Byte) (off n : Nat) : Nat := leNat ((p.drop off).take n)

/-- Bits `hi` down to `lo` of a number. -/
def bits (v hi lo : Nat) : Nat := (v >>> lo) % 2 ^ (hi + 1 - lo)

/-- One bit of a number. -/
def bit (v n : Nat) : Bool := (v >>> n) % 2 == 1

/-- A flag as 0 or 1. -/
def b2n (b : Bool) : Nat := if b then 1 else 0

/-- Packs fields, each a shift and a value. -/
def pack (l : List (Nat × Nat)) : Nat := l.foldl (fun a x => a + x.2 * 2 ^ x.1) 0

/-- Packs single bits. -/
def flags (l : List (Nat × Bool)) : Nat := pack (l.map (fun x => (x.1, b2n x.2)))

/-- The signed reading of the low `w` bits. -/
def sgn (w v : Nat) : Int :=
  let u := v % 2 ^ w
  if 2 * u < 2 ^ w then (u : Int) else (u : Int) - (2 ^ w : Nat)

/-- The `w`-bit two's-complement pattern of an integer. -/
def uns (w : Nat) (x : Int) : Nat := (x % ((2 ^ w : Nat) : Int)).toNat

/-- Bytes of a signed field. -/
def leInt (n : Nat) (x : Int) : List Byte := leBytes n (uns (8 * n) x)

/-- Saturation to a signed `w`-bit number. -/
def satS (w : Nat) (x : Int) : Int :=
  let top : Int := (2 ^ (w - 1) : Nat)
  if x ≥ top then top - 1 else if x < -top then -top else x

/-- Whether `satS w` changes the number. -/
def satHit (w : Nat) (x : Int) : Bool := decide (satS w x ≠ x)

/-- Saturation of a count at `2^w - 1`. -/
def satU (w x : Nat) : Nat := Nat.min x (2 ^ w - 1)

/-- Division by `2^k` rounding to nearest, ties to even. -/
def rndEven (k : Nat) (x : Int) : Int :=
  if k = 0 then x else
  let d : Int := (2 ^ k : Nat)
  let q := x / d
  let r := x % d
  if 2 * r < d then q else if 2 * r > d then q + 1 else if q % 2 = 0 then q else q + 1

/-- Division by a positive number rounding to nearest, ties to even. -/
def divEven (x : Int) (d : Nat) : Int :=
  if d = 0 then 0 else
  let q := x / (d : Int)
  let r := x % (d : Int)
  if 2 * r < (d : Int) then q else if 2 * r > (d : Int) then q + 1 else if q % 2 = 0 then q else q + 1

/-- Ceiling of a quotient. -/
def cdiv (a b : Nat) : Nat := if b = 0 then 0 else (a + b - 1) / b

/-- Integer square root, rounded down, over `fuel` halvings. -/
def isqrtAux : Nat → Nat → Nat → Nat → Nat
  | 0, lo, _, _ => lo
  | f + 1, lo, hi, n =>
    if hi ≤ lo + 1 then lo else
    let m := (lo + hi) / 2
    if m * m ≤ n then isqrtAux f m hi n else isqrtAux f lo m n

def isqrt (n : Nat) : Nat := isqrtAux (Nat.log2 n + 3) 0 (n + 1) n

/-- One bit of the reflected CRC-32C, polynomial 0x1EDC_6F41 (R57). -/
def crc32cBit (c : Nat) : Nat := if c % 2 = 1 then (c / 2) ^^^ 0x82F63B78 else c / 2

/-- One byte of the CRC-32C register. -/
def crc32cByte (c : Nat) (b : Byte) : Nat :=
  crc32cBit (crc32cBit (crc32cBit (crc32cBit (crc32cBit (crc32cBit (crc32cBit (crc32cBit (c ^^^ b.toNat))))))))

/-- CRC-32C: initial value and final XOR 0xFFFF_FFFF (R57). -/
def crc32c (bs : List Byte) : Nat := bs.foldl crc32cByte 0xFFFFFFFF ^^^ 0xFFFFFFFF

/-- One bit of the CRC-64 of R514: polynomial 0x42F0_E1EB_A9EA_3693, reflected. -/
def crc64Bit (c : Nat) : Nat := if c % 2 = 1 then (c / 2) ^^^ 0xC96C5795D7870F42 else c / 2

def crc64Byte (c : Nat) (b : Byte) : Nat :=
  crc64Bit (crc64Bit (crc64Bit (crc64Bit (crc64Bit (crc64Bit (crc64Bit (crc64Bit (c ^^^ b.toNat))))))))

/-- CRC-64 of a list of bytes, initial value and final XOR all ones (R514). -/
def crc64 (bs : List Byte) : Nat := bs.foldl crc64Byte (2 ^ 64 - 1) ^^^ (2 ^ 64 - 1)

/-- A block of bytes padded with zeros, or cut, to length `n`. -/
def padTo (n : Nat) (bs : List Byte) : List Byte := (bs ++ List.replicate (n - bs.length) 0).take n

/-- `n` zero bytes. -/
def zeros (n : Nat) : List Byte := List.replicate n 0

/-- The number of one bits among the low `n` bits. -/
def popcount : Nat → Nat → Nat
  | 0, _ => 0
  | n + 1, v => v % 2 + popcount n (v / 2)

/-- The indices below `n` whose bit is set. -/
def setBits (n v : Nat) : List Nat := (List.range n).filter (fun i => bit v i)

/-- A bitmap with the listed bits set. -/
def bitmapOf (l : List Nat) : Nat := l.foldl (fun m i => m ||| (1 <<< i)) 0

end Sys2Proof.Machine
end

