-- ==== Sys2Proof/Machine/Tab.lean ====
section
/-! DEFINITION. Sparse tables as plain data: a `Tab` maps numbers to entries, a `Memory` maps addresses to bytes.
Both are lists with strictly rising keys. A memory lists no zero byte: every memory of the part is cleared at boot
(Table 3-4, R410), so an unlisted address reads as zero. -/
namespace Sys2Proof.Machine

/-- A table from numbers to entries: pairs with strictly rising keys. -/
abbrev Tab (α : Type) := List (Nat × α)

/-- The entry at key `k`, if the table has one. -/
def tget? {α : Type} : Tab α → Nat → Option α
  | [], _ => none
  | (j, v) :: t, k => if j = k then some v else tget? t k

/-- The entry at key `k`, or `d`. -/
def tgetD {α : Type} (t : Tab α) (k : Nat) (d : α) : α := (tget? t k).getD d

/-- Sets the entry at key `k`, keeping keys rising. -/
def tput {α : Type} : Tab α → Nat → α → Tab α
  | [], k, v => [(k, v)]
  | (j, w) :: t, k, v =>
    if j < k then (j, w) :: tput t k v
    else if j = k then (k, v) :: t
    else (k, v) :: (j, w) :: t

/-- Removes the entry at key `k`. -/
def tdel {α : Type} : Tab α → Nat → Tab α
  | [], _ => []
  | (j, w) :: t, k => if j = k then t else (j, w) :: tdel t k

/-- Changes the entry at key `k`, taking `d` where the table has none. -/
def tmod {α : Type} (t : Tab α) (k : Nat) (d : α) (f : α → α) : Tab α := tput t k (f (tgetD t k d))

/-- A memory: address and byte pairs in the canonical form of `Memory.wf`. -/
abbrev Memory := List Host.Cell

/-- Every address listed is above `lo` where `lo` is given, addresses rise strictly, and no listed byte is zero. -/
def Memory.wfFrom : Option Nat → Memory → Bool
  | _, [] => true
  | lo, (a, b) :: t =>
    (match lo with
     | none => true
     | some l => decide (l < a)) && decide (b ≠ 0) && Memory.wfFrom (some a) t

/-- The canonical form: strictly rising addresses, no entry equal to what an unlisted address reads as. -/
def Memory.wf (m : Memory) : Bool := Memory.wfFrom none m

/-- The byte at an address; an unlisted address reads zero (R410, Table 3-4: memories are cleared at boot). -/
def memGet : Memory → Nat → Byte
  | [], _ => 0
  | (j, b) :: t, a => if j = a then b else memGet t a

/-- Writes one byte, keeping the canonical form: writing zero removes the entry. -/
def memPut : Memory → Nat → Byte → Memory
  | [], a, b => if b = 0 then [] else [(a, b)]
  | (j, c) :: t, a, b =>
    if j < a then (j, c) :: memPut t a b
    else if j = a then (if b = 0 then t else (a, b) :: t)
    else if b = 0 then (j, c) :: t
    else (a, b) :: (j, c) :: t

/-- `n` bytes from address `a` upward. -/
def memRead (m : Memory) (a : Nat) : Nat → List Byte
  | 0 => []
  | n + 1 => memGet m a :: memRead m (a + 1) n

/-- Writes the bytes from address `a` upward. -/
def memWrite : Memory → Nat → List Byte → Memory
  | m, _, [] => m
  | m, a, b :: bs => memWrite (memPut m a b) (a + 1) bs

/-- Clears every byte of addresses `lo` to `hi - 1`. -/
def memClear (m : Memory) (lo hi : Nat) : Memory := m.filter (fun c => c.1 < lo || hi ≤ c.1)

end Sys2Proof.Machine
end

