-- ==== Sys2Proof/Machine/State/Base.lean ====
section
/-! DEFINITION. The state of the stage manager: rings, mailboxes, events, pending changes, long operations, modes
(chapters 1, 2 and 3). -/
namespace Sys2Proof.Machine

/-- The three variants (Table 2-11): 1 OL9640-F, 2 OL9640-S, 3 OL9620-H. -/
inductive Variant where
  | f | s | h
  deriving DecidableEq, Repr

/-- The modes of Table 3-1, in code order. -/
inductive Mode where
  | boot | idle | analyse | record | watch | dormant | service | safe
  deriving DecidableEq, Repr

/-- An event as it occurs (Table 2-13), before a destination numbers it. `ord` is the cue channel and the ordinal
where ORD_VALID is set; `time` the TIME80 in 2^-32 s where TIME_VALID is set. -/
structure Event where
  code     : Nat
  inst     : Nat
  detail   : Nat
  ord      : Option (Nat × Nat) := none
  time     : Option Nat := none
  holdover : Bool := false
  paired   : Bool := false
  num      : Nat := 0                -- bytes 8-15 where ORD_VALID is clear: a result or stamp number (R49)
  deriving DecidableEq, Repr

/-- An entry as a destination holds it: the event and its sequence number there (R73). -/
structure EventEntry where
  seq : Nat
  ev  : Event
  deriving DecidableEq, Repr

/-- An open window of a rate-limited event (R74): occurrences held in it, the first held occurrence, and
what they add to its detail. -/
structure HeldWindow where
  held  : Nat := 0
  first : Option Event := none
  acc   : Nat := 0               -- what the held occurrences add to the detail (`CMP_EDGE`: edges ORed and the state)
  deriving DecidableEq, Repr

/-- The ring registers (Table 2-1 to 2-3) and the reply held for room (R53). -/
structure Rings where
  cmdBase     : Nat := 0
  cmdSize     : Nat := 0
  doorbell    : Nat := 0
  cmdHead     : Nat := 0
  rplBase     : Nat := 0
  rplSize     : Nat := 0
  rplTail     : Nat := 0
  rplHead     : Nat := 0
  evtBase     : Nat := 0
  evtSize     : Nat := 0
  evtTail     : Nat := 0
  evtHead     : Nat := 0
  tailMirror  : Nat := 0
  cmdEn       : Bool := false
  rplEn       : Bool := false
  evtEn       : Bool := false
  cmdHalt     : Bool := false
  rplStall    : Bool := false
  rplDropped  : Bool := false
  headErr     : Bool := false
  evtOverflow : Bool := false
  doorbellErr : Bool := false
  cfgErr      : Bool := false
  evtLost     : Nat := 0
  lossPending : Bool := false                   -- a loss not yet reported by EVENTS_LOST (R54)
  seq         : Nat := 0                        -- entries written to the event ring (R73)
  held        : Option (List Byte) := none      -- the reply waiting for room (R53)
  turn        : Nat := 0                        -- whose turn it is (R64): 0 the command ring, 1 SPI, 2 SMBus
  deriving DecidableEq, Repr

/-- One mailbox (Tables 2-17 to 2-19): buffers, status, event FIFO of 256 entries, and the SMBus pointer (R88). -/
structure Mailbox where
  cmdBuf      : Memory := []
  rplBuf      : List Byte := []
  busy        : Bool := false
  rplReady    : Bool := false
  goRejected  : Bool := false
  pecErr      : Bool := false
  evtLostFlag : Bool := false
  lost        : Nat := 0
  lossPending : Bool := false
  seq         : Nat := 0
  fifo        : List EventEntry := []
  pointer     : Nat := 0
  deriving DecidableEq, Repr

/-- Latches and rate-limit windows of events (R74), by code and instance. -/
structure EventUnit where
  latches : List (Nat × Nat) := []
  windows : List ((Nat × Nat) × HeldWindow) := []
  deriving DecidableEq, Repr

/-- What an accepted AT_ORDINAL command does when its cue ordinal arrives (R35). -/
inductive PendAct where
  | params (entries : List (Nat × Nat × Nat))       -- SET_PARAM: parameter, instance, value
  | mode (target : Mode)                            -- SET_MODE between ANALYSE and RECORD
  | stop
  | cueTask (sheets : Nat) (input : Nat)            -- CUE_TASK: sheet bitmap, task input (R239)
  | cueHost (code : Nat)                            -- CUE_HOST
  | maskSwap (comparator : Nat)
  | capArm (units : Nat)                            -- CAP_ARM, CAP_DISARM: unit bitmap (R258)
  | capDisarm (units : Nat)
  | duSwap (unit : Nat)
  | duClear (unit : Nat)
  | aeStart (payload : List Byte)                   -- AE_START: its payload (chapter 12)
  deriving DecidableEq, Repr

/-- An accepted AT_ORDINAL change (R34): cue channel, cue ordinal, and the command it stands for. -/
structure PendChange where
  chan   : Nat
  ord    : Nat
  tag    : Nat
  opcode : Nat
  inst   : Nat
  act    : PendAct
  deriving DecidableEq, Repr

/-- The states of a long operation (Table 2-15). -/
inductive OpState where
  | running | suspending | suspended | cancelling | done | failed | cancelled
  deriving DecidableEq, Repr

/-- What a long operation works on, beyond the counts of its `QUERY_OP` record: its own parameters and its plan. -/
structure OpWork where
  units : List Nat := []            -- instances or kinds still to do, in order
  finished : List Nat := []
  args  : List Nat := []
  bytes : List Byte := []
  deriving DecidableEq, Repr

/-- A long operation (R77 to R79). -/
structure LongOp where
  handle : Nat
  opcode : Nat
  inst   : Nat := 0
  tag    : Nat := 0
  state  : OpState := .running
  failed : Nat := 0                 -- the failing status (Table 2-15)
  done   : Nat := 0
  total  : Nat := 0
  points : Bool := false            -- past the point where it can be cancelled (R83)
  work   : OpWork := {}
  deriving DecidableEq, Repr

/-- A transition in progress (R95) and why it was begun (Table 3-14: 0 `SET_MODE`, 1 wake, 2 SAFE cause). -/
structure Transition where
  target : Mode
  reason : Nat
  deriving DecidableEq, Repr

/-- Modes, wake, boot, shed and SAFE state (chapter 3). -/
structure ModeUnit where
  mode        : Mode := .boot
  transit     : Option Transition := some { target := .idle, reason := 0 }
  powered     : Bool := true                    -- every rail above its power-on monitor threshold (R530)
  rstLow      : Bool := true                    -- RST_N asserted
  booting     : Bool := false                   -- the boot sequence runs (R96)
  everIdle    : Bool := false                   -- IDLE reached since reset (R421, R505)
  cause       : Nat := 1                        -- cause of the reset, reported once the boot has begun
  wakeCause   : Nat := 0
  wakePending : Bool := false                   -- a source fired during entry to WATCH or DORMANT (R102)
  waking      : Bool := false                   -- a wake transition is in progress (R100)
  wakeStamp   : Option Nat := none              -- the stamp of the source, where it was stamped (R100)
  wakeTimerOn : Bool := false                   -- the count of `sys.wake_timer` runs (R101)
  bootSlot    : Nat := 0
  resetCause  : Nat := 0
  bootTime    : Nat := 0
  aBad        : Bool := false
  bBad        : Bool := false
  hbmRetry    : Bool := false
  hbmFail     : Bool := false
  romServes   : Bool := false                   -- the ROM serves in place of the stage manager (R97)
  safeCause   : Nat := 0
  tripped     : Bool := false                   -- Tj not yet below 115 C since a thermal trip (R108)
  level       : Nat := 0                        -- the device's shed level
  regionLevel : List Nat := [0, 0, 0, 0]
  deviation   : List Int := [0, 0, 0, 0]        -- of Q0-Q3, mV (Table 3-10)
  shedCount   : List Nat := [0, 0, 0, 0, 0]     -- entries to levels 1-5 (R117)
  lastStarted : List Nat := []                  -- channels configured at the last STOP (R103)
  stopping    : Option Nat := none              -- the stop ordinal of a `STOP` that some channel has not reached (R563)
  deriving DecidableEq, Repr

/-- What leaves the device, in the order it leaves. The spec gives the device no such log: it is how the model shows
writes to host memory, pins, drives, the boot flash and the links. -/
inductive Output where
  | reply (addr : Nat) (bytes : List Byte)                  -- a reply written at its slot of the reply ring
  | event (addr : Nat) (entry : EventEntry)                 -- an entry written to the event ring
  | mirror (addr : Nat) (bytes : List Byte)                 -- the mirror line (R55)
  | msix (vector : Nat)
  | smbus (bytes : List Byte)                               -- a block read answered (R88)
  | smbusNak
  | spi (bytes : List Byte)                                 -- the data bytes of an SPI read (R87)
  | bar (bytes : List Byte)                                 -- a read of BAR0 or BAR2 answered (R414, R425)
  | dma (addr : Nat) (bytes : List Byte)                    -- data written to host memory
  | dmaReadBack (addr : Nat)                                -- the read of R430, step 2
  | dmaDone (addr : Nat) (bytes : List Byte)                -- bytes 24-31 of a descriptor
  | trg (out : Nat) (rise fall : Nat)
  | pulse (gate : Nat) (rise fall : Nat) (fine : Nat)
  | outputsLow                                              -- TRG_OUT0-3, PG0, PG1 driven low (R96, R106)
  | pdac (n : Nat) (span code : Nat)
  | alive (level : Bool)
  | nvmeWrite (member block : Nat) (bytes : List Byte)      -- Write with FUA, from a 4 KiB block on (R273, R274)
  | nvmeZero (member block count : Nat)                     -- the same, of zeroed blocks
  | nvmeDeallocate (member block count : Nat)               -- Dataset Management (R273)
  | nvReset (port : Nat) (held : Bool)                      -- NVp_REFCLK and NVp_PERST_N (R538)
  | flashFacets (masks : List Nat)
  | flashAgeing (bytes : List Byte)
  | flashSelect (slot : Nat) (trial : Bool) (seq : Nat)
  | flashErase (slot : Nat)
  | flashSector (slot index : Nat) (bytes : List Byte)
  | flashTerm (term : Nat)
  | fuse (index : Nat)
  | pmbusVout (region : Nat) (mv : Nat)
  | link (type : Nat) (data : List Nat)                     -- a message on the pair link (Table 18-1)
  | linkExtent (chan x : Nat) (e : CheckFacts)              -- a check extent (R514)
  | linkConfig (opcode : Nat) (p : Packet)
  | hbmData (port : Nat) (bytes : List Byte) (poison : Bool) -- read data delivered to its port
  | pixel (output x y : Nat) (value : Nat)
  | train (output lanes rate : Nat)
  | tdo (bits : List Bool)
  | released (unit : Nat) (bytes : Nat)                     -- played extents released without writing (R92)
  deriving DecidableEq, Repr

end Sys2Proof.Machine
end

