-- ==== Sys2Proof/Machine/State/Clocks.lean ====
section
/-! DEFINITION. The state of the main converters, their conditioners, the clocks and the pulse gates (chapters 4
and 5). -/
namespace Sys2Proof.Machine

/-- A coefficient set (Table 4-7): per full-scale setting 16 offsets and 16 gains, 16 skews, the pair skew. -/
structure CoefSet where
  offsets   : List (List Int) := List.replicate 4 (List.replicate 16 0)
  gains     : List (List Int) := List.replicate 4 (List.replicate 16 0)
  skews     : List Int := List.replicate 16 0
  skewPair  : Int := 0
  pairValid : Bool := false
  deriving DecidableEq, Repr

/-- One sample as the conditioner keeps it (R130): v, the skew of its sub-converter in 2^-24 sample periods, and its
flags: OVR, STL of a settling window, SAT of v, and whether it was lost in a gap (R26). -/
structure RawSample where
  v    : Int
  skew : Int
  ovr  : Bool := false
  stl  : Bool := false
  sat  : Bool := false
  gap  : Bool := false
  deriving DecidableEq, Repr

/-- A conditioned or zoom sample with its flags (R131, R135). -/
structure FlagIQ where
  i   : Int
  q   : Int
  ovr : Bool := false
  stl : Bool := false
  sat : Bool := false
  gap : Bool := false
  deriving DecidableEq, Repr

/-- The producer buffer of a fixed-rate island (R18, R24): a gap in progress, the gaps ended whose markers still stand in
the buffer, and the gaps marked so far. What the buffer holds at a sample is what lies between the next sample to leave
it and that sample, less the lost ones. -/
structure ProducerBuf where
  dropping : Option Nat := none          -- first lost ordinal of the gap in progress
  found    : Nat := 0                    -- the sample that found the buffer full
  ended    : List (Nat × Nat) := []      -- first and last lost ordinal of each ended gap, oldest first
  gaps     : Nat := 0                    -- gap count since `START` (Table 1-6)
  deriving DecidableEq, Repr

/-- One main converter and its conditioner (chapter 4). -/
structure Channel where
  running   : Bool := false
  count     : Nat := 0                   -- samples of this converter since ordinal 0
  stopOrd   : Option Nat := none         -- the stop ordinal of the last `STOP`, in this channel's domain (R563)
  stopAt    : Option Nat := none         -- the stop ordinal of a `STOP` that the channel has not reached yet (R563)
  startAt   : Nat := 0                   -- start instant, 2^-32 s (R28)
  coef      : CoefSet := {}
  loaded    : Option CoefSet := none     -- set by CONV_CAL_LOAD, in force at the next `START` (R144)
  calValid  : Bool := false
  loadedValid : Bool := false
  stats     : Nat := 0                   -- statistics of the block in progress (R125)
  usable    : List Nat := [0, 0, 0, 0]   -- usable samples of the block, by setting (R127)
  power     : List Nat := [0, 0, 0, 0]   -- sum of CODE squared over them
  updates   : List (Nat × Nat × List Nat) := []  -- due ordinal, statistics, settings updated (R125)
  staleCnt  : List Nat := [0, 0, 0, 0]   -- R127
  staleDue  : List (Nat × Nat) := []     -- settings whose count reached 2^30 and the ordinal, event not yet posted
  stale     : Bool := false
  fsInForce : Nat := 0
  stlEnd    : Nat := 0                   -- ordinals below this carry STL (R136, R137)
  losCount  : Nat := 0                   -- samples in the window in progress (R142)
  losSum    : Nat := 0
  losThr    : Int := -600                -- threshold in force for the window, 0.1 dB
  losLow    : Nat := 0                   -- consecutive windows below the threshold
  losHigh   : Nat := 0                   -- consecutive windows at or above it plus 3 dB
  losDue    : Option (Bool × Nat) := none -- declaration or clearing found, with its ordinal
  los       : Bool := false
  ovrSeen   : Bool := false
  ovrCount  : Nat := 0
  hist      : List RawSample := []       -- latest samples first, as far as the conditioner reaches (R130)
  clkPhase  : Int := 0                   -- phase of the converter's clock output, in steps (R158)
  buf       : ProducerBuf := {}
  deriving DecidableEq, Repr

/-- One PLL (R146 to R160). -/
structure Pll where
  powered    : Bool := false
  n          : Nat := 0                  -- integer part of the VCO ratio in force (R146)
  f          : Nat := 0                  -- its fraction, of m = 2 × f_ref
  lock       : Bool := false
  started    : Bool := false             -- lock declared since power-up: the outputs have started (R160)
  coast      : Bool := false
  unlockSeen : Bool := false
  diff       : Int := 0
  good       : Nat := 0                  -- consecutive windows within 2 counts (R152)
  bad        : Nat := 0
  deriving DecidableEq, Repr

/-- Reference selection, PPS and TIME80 (R149 to R162). -/
structure ClockUnit where
  source      : Nat := 0                 -- Table 5-6: 0 none, 1 REFIN, 2 XO
  refinOk     : Bool := false
  refinFreq   : Nat := 0
  refinHz     : Nat := 0                 -- the frequency at which REFIN was qualified (R150)
  xoOk        : Bool := false
  refLostSeen : Bool := false
  ppsQual     : Bool := false
  ppsLostSeen : Bool := false
  ppsGood     : Nat := 0                 -- consecutive good edges
  ppsRejects  : Nat := 0
  seconds     : Nat := 0                 -- TIME80 seconds given to the last good edge
  firstEdge   : Bool := true             -- no good edge yet since boot (R162)
  ppsGone     : Bool := false            -- PPS_IN has been lost since the last good edge (R162)
  setTime     : Option Nat := none       -- seconds waiting for a good edge (R162)
  holdMs      : Nat := 0                 -- time in holdover as last read, ms (R156)
  plls        : List Pll := [{}, {}, {}, {}]
  deriving DecidableEq, Repr

/-- One pulse gate (R163 to R167). -/
structure Gate where
  nextFrom  : Nat := 0                   -- ordinals below this are past or withheld
  counted   : Nat := 0                   -- pulses counted against `pg.count`
  emitted   : Nat := 0                   -- pulses emitted since enable (Table 5-5)
  done      : Bool := false
  high      : Option Nat := none         -- falling-edge ordinal of the pulse in progress
  deriving DecidableEq, Repr

end Sys2Proof.Machine
end

