-- ==== Sys2Proof/Machine/State/Zooms.lean ====
section
/-! DEFINITION. The state of the zooms and of the spectrum streams (chapters 6 and 7). -/
namespace Sys2Proof.Machine

/-- A half-band stage or the resampler: inputs taken since the zoom started, and the latest of them first (R177). -/
structure ZStage where
  taken : Nat := 0                    -- from the lowest input that can differ from zero on (R185)
  hist  : List FlagIQ := []
  deriving DecidableEq, Repr

/-- A change of a per-sample setting of a running zoom (R190): its ordinal and the new values. -/
structure TuneChange where
  ord    : Nat
  freq   : Option Int := none
  phase  : Option Nat := none
  shift  : Option Nat := none
  deriving DecidableEq, Repr

/-- A gap in a block's own index domain: the marker it emits (R26, R187, R207). -/
structure GapRange where
  first  : Nat
  last   : Nat
  marker : GapMarker
  deriving DecidableEq, Repr

/-- A turn of a zoom that waits until the outputs of the one before it have all been delivered (R190): where it starts,
where it was disabled again, and its changes so far. -/
structure ZoomTurn where
  at_     : Nat
  stop    : Option Nat := none
  changes : List TuneChange
  cfg     : Tab Nat
  deriving DecidableEq, Repr

/-- One zoom (chapter 6). -/
structure Zoom where
  running  : Bool := false
  shed     : Bool := false
  origin   : Nat := 0                 -- a_0 of the current or last stream (R184)
  next     : Nat := 0                 -- conditioned index of the next input
  phase    : Nat := 0                 -- phi of the next input in CONTINUOUS mode (R175)
  changes  : List TuneChange := []    -- changes applied since the start, oldest first
  stages   : List ZStage := []
  rs       : ZStage := {}
  rsNext   : Nat := 0                 -- resampler output number (R183)
  outIndex : Nat := 0                 -- zoom index of the first output not yet in a block
  outs     : List FlagIQ := []        -- outputs not yet in a block, oldest first
  stopAt   : Option Nat := none       -- ordinal of a disable not yet reached by the outputs (R190)
  gaps     : List GapRange := []
  gapsOut  : List GapMarker := []     -- markers emitted since the last block (R187)
  sat      : Nat := 0                 -- SAT bits of `zoom.status` (Table 6-7)
  cfg      : Tab Nat := []            -- the settings at its start, by parameter: a disabled zoom's last outputs keep them
  later    : List ZoomTurn := []      -- turns begun while the outputs of an earlier one are still to come, oldest first
  wait     : List (Nat × Nat × FlagIQ) := [] -- source, index and sample of what they will take, oldest first
  waitGaps : List GapMarker := []     -- gap markers that they will take
  deriving DecidableEq, Repr

/-- A hop change waiting (R221): the applied ordinal, the new hop code, and whether shedding or re-planning forces it. -/
structure HopChange where
  ord    : Nat
  hop    : Nat
  shed   : Bool
  replan : Bool
  atMark : Bool := false              -- a change of the marking gate: the segment begins at the first mark (R216)
  deriving DecidableEq, Repr

/-- A turn of a stream that waits until the frames of the one before it have all been delivered (R219): where it starts, where
it was disabled again, and its settings. -/
structure StreamTurn where
  at_  : Nat
  stop : Option Nat := none
  cfg  : Tab Nat
  deriving DecidableEq, Repr

/-- One spectrum stream (chapter 7). `buf` holds the source samples not yet past every frame, oldest first, from
source index `base`. -/
structure Stream where
  running   : Bool := false
  shedStop  : Bool := false
  startOrd  : Nat := 0
  base      : Nat := 0
  buf       : List FlagIQ := []
  origin    : Nat := 0                -- source index of the first frame of the segment (R200)
  segFrame  : Nat := 0                -- frame index of the first frame of the segment
  originOrd : Nat := 0                -- its aligned ordinal (`xf.origin`)
  segment   : Nat := 0
  frame     : Nat := 0                -- index of the next frame
  hop       : Nat := 2                -- hop code in force
  forcedShed   : Bool := false        -- hop forced by shed level 3 (R221)
  forcedReplan : Bool := false        -- hop forced by `MARGIN_REPLAN`
  segNew    : Bool := false           -- the next frame is the first of a segment
  hops      : List HopChange := []    -- hop changes waiting, in order (R221)
  stopAt    : Option Nat := none      -- ordinal of a disable (R219)
  trace     : List (List Int) := []   -- frames of the trace in progress, as positions' values
  traceLog  : List (Nat × Nat × Nat) := []  -- their reference ordinal, its fraction, and flags
  traceIdx  : Nat := 0
  marks     : List (Nat × Nat) := []  -- record marks: ordinal and source index of position 0 (R215)
  records   : Nat := 0                -- record number of the first mark kept
  lastMark  : Option Nat := none
  ignored   : Nat := 0                -- `xf.marks_ignored`
  sel       : List (Nat × Nat × Nat × Nat) := []  -- `xf.output`, `xf.bin_first`, `xf.bin_count` from an ordinal on, latest first (R219)
  gaps      : List GapRange := []     -- gaps whose frames are still to come, in source indices (R207)
  user      : Tab Nat := []           -- the USER window (R205)
  evalAt    : Option Nat := none      -- evaluation ordinal of the last frame delivered
  cfg       : Tab Nat := []           -- the settings at its start, by parameter: a disabled stream's last frames keep them
  later     : List StreamTurn := []   -- turns begun while frames of an earlier one are still to come, oldest first
  wait      : List (Nat × Nat × FlagIQ) := []  -- source, index and sample of what they will take, oldest first
  waitMarks : List (Nat × Nat) := []  -- marks that they will take: source and ordinal
  waitGaps  : List (Nat × GapMarker) := []     -- gap markers that they will take, by source
  deriving DecidableEq, Repr

/-- One transform unit: its shares (R197), each a stream and the work placed on the unit, in 2^-32 samples per second. -/
structure XfUnit where
  shares   : List (Nat × Nat) := []
  deriving DecidableEq, Repr

end Sys2Proof.Machine
end

