-- ==== Sys2Proof/Machine/State/Capture.lean ====
section
/-! DEFINITION. The state of the capture units, their rings in the wings, and the store (chapter 9). -/
namespace Sys2Proof.Machine

/-- One unit of a source as a ring holds it (Table 9-1): a raw sample, a zoom block, a frame record, a result, a
stamp, an engine product, or a marker. `typ` is the item type of Table 9-6; a raw sample is type 0x10 with its CODE
in `body`. -/
structure CapItem where
  typ   : Nat
  ord   : Nat                       -- ordinal of its first unit, in the cue channel
  last  : Nat                       -- ordinal of its last unit
  index : Nat                       -- the `first` field of Table 9-5
  body  : List Byte
  flags : Nat := 0                  -- [0] OVR, [1] STL, [2] SAT, [3] GAP
  deriving DecidableEq, Repr

/-- A span that a record plays: the whole of a PREPOST or CONTINUOUS record, or a segment (R259 to R261). `d` is its
dead time (R253), `flags` its bits of Table 9-14. -/
structure Seg where
  first   : Nat
  last    : Nat
  trigger : List Byte := []         -- its cue record, 64 bytes, or empty
  flags   : Nat := 0
  d       : Nat := 0
  lo      : Nat := 0                -- first ordinal of its checked span (R254)
  begun   : Bool := false           -- its SEGMENT and CAL items have been stored
  deriving DecidableEq, Repr

/-- A record that a unit plays. -/
structure OpenRec where
  mode    : Nat
  number  : Nat := 0                -- record number; 0 until its first block is placed in the store
  first   : Nat
  lastOrd : Nat := 0                -- last ordinal of the spans completed
  trigger : List Byte := []
  flags   : Nat := 0
  d       : Nat := 0
  segs    : List Seg := []          -- spans accepted and not yet played whole, in order
  done    : Nat := 0                -- spans played whole
  final   : Bool := false           -- no further span will join
  armAt   : Nat := 0                -- arm ordinal of the arming that it belongs to
  until_  : Option Nat := none      -- disarm ordinal: no trigger from there on joins (R260)
  cal     : List Byte := []         -- its latest CAL body (R272)
  items   : List CapItem := []      -- played items not yet formatted
  tail    : List Byte := []         -- payload bytes not yet filling a block
  payload : Nat := 0
  poison  : List Nat := []          -- payload places of poisoned lines not yet in a placed block (R289)
  gaps    : Nat := 0
  steps   : Nat := 0
  blocks  : Nat := 0                -- blocks placed so far (R278)
  serial0 : Nat := 0                -- first extent serial
  step0   : Nat := 0
  headed  : Bool := false           -- the host destination has its first HEADER item
  deriving DecidableEq, Repr

/-- One capture unit. -/
structure CapUnit where
  running   : Bool := false
  armed     : Bool := false
  armOrd    : Nat := 0
  wins      : List (Nat × Nat × Nat) := []    -- armings ended: arm ordinal, the ordinal after, records begun (R258)
  blocked   : Bool := false
  start     : Nat := 0
  ring      : List CapItem := []              -- rehearsed data, oldest first
  ringBytes : Nat := 0                        -- its size in 1/(16,384 × 127) of a byte (R264)
  lastIn    : Nat := 0                        -- ordinal of the source's last item (R260)
  lostTo    : Nat := 0                        -- ordinals below this were overwritten (struck)
  playedBytes : Nat := 0                      -- placed or delivered, and not yet confirmed (R264)
  extBytes  : Tab Nat := []                   -- of them, by extent serial
  recs      : List OpenRec := []              -- records accepted and not yet played whole
  e         : Option Nat := none              -- last ordinal of the previous record since `START` (R253)
  prevRec   : Nat := 0
  recsArmed : Nat := 0                        -- records played since the arm (R258)
  records   : Nat := 0
  ignored   : Nat := 0
  gapLog    : List (Nat × Nat) := []          -- lost ordinals named by markers since the start (R254)
  cal       : List Byte := []                 -- the latest CAL bodies before the ring
  step      : Nat := 0
  stepPend  : Option (Nat × Nat) := none      -- σ and the new step (R268)
  stepCount : Nat := 0
  red       : Zoom := {}                      -- the private chain of a stepped-down unit (R267)
  old       : Zoom := {}                      -- the chain of the previous step, until its outputs reach the step ordinal (R268)
  oldStep   : Nat := 0
  group     : List (List Byte) := []          -- frame records of the max-hold group in progress (R267)
  deriving DecidableEq, Repr

/-- A journal entry (R283): sequence, type, and the body from byte 16. -/
structure JEntry where
  seq  : Nat
  typ  : Nat
  body : List Byte
  deriving DecidableEq, Repr

/-- A block placed in an extent (Table 9-11). -/
structure BlockRec where
  record : Nat
  index  : Nat
  kind   : Nat                                 -- 0 data, 1 header, 2 catalogue
  final  : Bool := false
  poison : Bool := false
  data   : List Byte := []                     -- its payload bytes in use
  deriving DecidableEq, Repr

/-- One copy of an extent. -/
structure CopyRec where
  member  : Nat
  slot    : Nat
  done    : Bool := false
  failed  : Bool := false
  retried : Bool := false
  deriving DecidableEq, Repr

/-- An extent (R281, Table 9-10): state 0 open, 1 PENDING, 2 DONE, 3 FAILED, 4 LOST; 6 shadowed (R512). -/
structure Extent where
  serial : Nat
  unit   : Nat
  state  : Nat
  blocks : List BlockRec := []
  copies : List CopyRec := []
  jseq   : Nat := 0                            -- sequence of its EXTENT_PENDING entry
  deriving DecidableEq, Repr

/-- A damaged range of a record (Table 9-14). -/
structure Damage where
  serial : Nat
  first  : Nat
  count  : Nat
  reason : Nat
  deriving DecidableEq, Repr

/-- A record of the store (Table 9-13): state 0 PENDING, 1 PLAYED, 2 SEALED, 3 DAMAGED, 4 FREED. -/
structure StoreRec where
  number  : Nat
  unit    : Nat
  state   : Nat
  ended   : Bool := false
  header  : List Byte := []
  source  : Nat := 0
  rate    : Nat := 0
  damage  : List Damage := []
  sealed  : Bool := false                      -- RECORD_SEALED journalled
  posted  : Bool := false                      -- RECORD_DAMAGED posted
  deriving DecidableEq, Repr

/-- One NVMe port as a store member (Table 9-17): 0 none, 1 active, 2 lost, 3 UNSUITED, 4 foreign. -/
structure Member where
  state : Nat := 0
  slots : Nat := 0                             -- S of R274
  mdts  : Nat := 0                             -- largest transfer of its drive, bytes (R273)
  used  : List Nat := []                       -- slots in use, ascending
  deriving DecidableEq, Repr

/-- The store (R273 to R297). -/
structure Store where
  state      : Nat := 0                        -- Table 9-18
  formatted  : Bool := false
  mirror     : Bool := false
  encrypted  : Bool := false
  locked     : Bool := false
  keyId      : Nat := 0
  keySlot    : Nat := 0
  formattedAt : Nat := 0                       -- TIME80 of the format
  formatter  : Nat := 0                        -- serial number of the formatting device
  storeId    : Nat := 0                        -- 16 bytes, chosen at format (Table 9-9)
  clean      : Bool := false
  full       : Bool := false
  degraded   : Bool := false
  generation : Nat := 0
  members    : List Member := List.replicate 8 {}
  cycle      : Nat := 0                        -- member after which allocation goes on (R282)
  journal    : List JEntry := []               -- entries from the checkpoint on
  jseq       : Nat := 0                        -- sequence of the last entry made
  committed  : Nat := 0                        -- sequence of the last committed entry
  checkpoint : Nat := 0
  nextRecord : Nat := 1
  nextSerial : Nat := 1
  extents    : List Extent := []
  records    : List StoreRec := []
  catalogue  : List (List Byte) := []          -- catalogue entries in order (R286)
  catTip     : Nat := 0                        -- serial of the open catalogue extent, 0 for none (Table 9-9)
  catFill    : Nat := 0                        -- entries written in it
  catBlock   : List (List Byte) := []          -- the entries of its last block
  catExtents : List (Nat × List (Nat × Nat)) := []  -- catalogue extents: serial, and member and slot of each copy
  touched    : List (Nat × Nat) := []          -- slots whose map entry has changed since the checkpoint (R276, R284)
  portsUp    : Bool := false                   -- NVp_REFCLK and NVp_PERST_N run: released from their reset state (R538)
  deriving DecidableEq, Repr

/-- The rate-reduction policy (R266): units stepped down, most recent first. -/
structure ReducePolicy where
  stack  : List Nat := []
  above  : Bool := false                       -- the backlog is above 75%
  deriving DecidableEq, Repr

end Sys2Proof.Machine
end

