-- ==== Sys2Proof/Machine/State/Cues.lean ====
section
/-! DEFINITION. The state of the cue sheets, mask comparators, level detectors, timers and trigger outputs
(chapter 8). -/
namespace Sys2Proof.Machine

/-- An item of a condition source (Table 8-1). `tests` lists the edge tests the item passes; `level` is the state a
level test reads: 1 HIT, ABOVE or INSIDE, 0 otherwise, or the result itself for AUX. -/
structure Item where
  kind     : Nat
  inst     : Nat
  ord      : Nat
  tests    : List Nat := []
  level    : Int := 0
  hits     : Nat := 0
  firstHit : Nat := 0
  flags    : Nat := 0        -- [3:0] OVR, STL, SAT, GAP; [4] SHED or EVMARK; [5] the item is timed (R246)
  frac     : Nat := 0        -- part of an ordinal × 2^32 of a stamped item (Table 8-8)
  late     : Bool := false   -- taken at the oldest unplayed ordinal (R244)
  deriving DecidableEq, Repr

/-- A task event (R236): its ordinal, input, source index, whether it makes the sheet timed, and its fraction. -/
structure Task where
  ord   : Nat
  input : Nat
  src   : Nat
  timed : Bool := false
  frac  : Nat := 0
  deriving DecidableEq, Repr

/-- The states of a sheet (Table 8-12). -/
inductive SheetState where
  | disarmed | armed | paused
  deriving DecidableEq, Repr

/-- What a checkpoint holds (R242): current cue, entry ordinal, occurrences, the combination at the previous
evaluation point, and the pending events of each task input (R238). -/
structure SheetCore where
  st      : SheetState := .disarmed
  cue     : Nat := 0
  e       : Int := 0
  occ     : Nat := 0
  prev    : Option Bool := none
  begun   : Bool := false                       -- a point with the combination true came once `min` had passed (R233)
  pending : List (List Task) := List.replicate 8 []
  timed   : Bool := false
  deriving DecidableEq, Repr

/-- One cue sheet. -/
structure Sheet where
  image      : List Byte := []                  -- as loaded; empty: no image (R231)
  core       : SheetCore := {}                  -- at the played ordinal
  checks     : List (Nat × SheetCore) := []     -- rehearsed ordinals and the state before each (R242)
  tasks      : List Task := []                  -- delivered, not yet played
  taskCount  : List Nat := List.replicate 8 0   -- `cue.task_count`
  fires      : Nat := 0
  strikes    : Nat := 0
  marks      : Nat := 0
  lateSeen   : Bool := false
  taskOvf    : Bool := false
  record     : List Byte := []                  -- the cue record of the last firing, timeout or mark played (R252)
  deriving DecidableEq, Repr

/-- One mask comparator: two buffers, each an upper and a lower table (R228). An unlisted upper entry is 65,535 and an
unlisted lower entry 0. -/
structure Mask where
  upper0 : Tab Nat := []
  lower0 : Tab Nat := []
  upper1 : Tab Nat := []
  lower1 : Tab Nat := []
  active : Nat := 0
  swapAt : Option Nat := none                   -- a swap waits for the frames from this ordinal on
  swapAtStart : Bool := false                   -- a swap commanded while the stream was stopped
  deriving DecidableEq, Repr

/-- One trigger output (R247, R248): scheduled pulses as rise and fall ordinals, and the output's level. -/
structure TrgOut where
  queue   : List (Nat × Nat) := []
  high    : Option Nat := none                  -- falling-edge ordinal while high
  count   : Nat := 0
  dropped : Nat := 0
  deriving DecidableEq, Repr

/-- The sheets' shared state: items in flight, items delivered since `START`, and the played ordinal. -/
structure CueUnit where
  sheets    : List Sheet := List.replicate 8 {}
  arriving  : List Item := []                   -- delivered by their sources, not yet rehearsed
  items     : List Item := []                   -- rehearsed or played since `START`, in ordinal order
  played    : Nat := 0                          -- ordinals below this are played
  masks     : List Mask := List.replicate 16 {}
  above     : List Bool := List.replicate 16 false   -- level detectors: ABOVE
  timerNext : List Nat := List.replicate 8 0    -- k of the next tick of each timer (R230)
  trg       : List TrgOut := List.replicate 4 {}
  deriving DecidableEq, Repr

end Sys2Proof.Machine
end

