-- ==== Sys2Proof/Machine/State/Display.lean ====
section
/-! DEFINITION. The state of the density units, display outputs and planes (chapter 10). -/
namespace Sys2Proof.Machine

/-- A render of a density unit (R307): the spectrum count it shows and its pixels as 32-bit words, line 0 first. -/
structure Render where
  n      : Nat
  cols   : Nat
  rows   : Nat
  format : Nat
  pixels : List Nat
  deriving DecidableEq, Repr

/-- One fed frame waiting in the queue of R310: its index, reference ordinal, flags and PW16 values. -/
structure FedFrame where
  index : Nat
  ord   : Nat
  flags : Nat
  pw    : List Nat
  deriving DecidableEq, Repr

/-- One density unit. Cell (row, column) of the lattice is entry row × C + column; an unlisted cell is 0. -/
structure DensityUnit where
  running   : Bool := false
  cells     : Tab Nat := []
  ovr       : Bool := false
  stl       : Bool := false
  sat       : Bool := false
  lsat      : Bool := false
  n         : Nat := 0
  dec       : Nat := 0                       -- j; d = 2^j (R309)
  lastOrd   : Nat := 0                       -- reference ordinal of the last counted frame
  queue     : List FedFrame := []            -- fed frames not yet counted, oldest first
  incr      : Nat := 256                     -- increment and fade in force (R306)
  fade      : Nat := 60000
  incrPend  : List (Nat × Nat) := []         -- changes waiting for their frame: ordinal, value
  fadePend  : List (Nat × Nat) := []
  clearPend : List Nat := []
  swapPend  : Option Nat := none             -- a palette swap from this ordinal on
  swapAtStart : Bool := false
  pauses    : List (Nat × Option Nat) := []  -- shed pauses since the start: applied ordinals of entry and recovery (R311)
  palette0  : Tab Nat := []
  palette1  : Tab Nat := []
  active    : Nat := 0
  userMap   : Tab Nat := []                  -- thresholds loaded; an unlisted t_i is i (R304)
  buffers   : List (Option Render) := [none, none, none, none]
  order     : List Nat := [0, 1, 2, 3]       -- buffers, oldest completed first
  newest    : Option Nat := none             -- the newest completed buffer
  renderN   : Nat := 0                       -- `du.render_count`
  gapFrames : Nat := 0
  clipped   : Nat := 0
  pausedFrames : Nat := 0
  skipped   : Nat := 0
  tainted   : Bool := false                  -- outside the guarantee until the next `START` (R308)
  poisoned  : Bool := false                  -- poison took cells: outside the guarantee until the next clear (Table 13-4)
  reads     : List Nat := []                 -- DMA channels waiting for a lattice read at the next pass
  deriving DecidableEq, Repr

/-- The settings of one plane as latched at a frame start (R315, R317). -/
structure PlaneView where
  enable : Bool := false
  source : Nat := 0
  addr   : Nat := 0
  stride : Nat := 7680
  width  : Nat := 1920
  height : Nat := 1080
  x      : Nat := 0
  y      : Nat := 0
  format : Nat := 0
  orient : Nat := 0
  alpha  : Nat := 1023
  latched : Option Nat := none               -- the render buffer held for this frame
  deriving DecidableEq, Repr

/-- One display output with its two planes. -/
structure DisplayOut where
  running   : Bool := false
  blanked   : Bool := false
  hpd       : Bool := false
  trained   : Bool := false
  lanes     : Nat := 0
  rate      : Nat := 0
  underrunSeen : Bool := false
  poisonSeen   : Bool := false
  underruns : Nat := 0
  frames    : Nat := 0
  aborted   : Bool := false                  -- black for the rest of this frame (R319)
  scanX     : Nat := 0                       -- next active pixel to be scanned
  scanY     : Nat := 0
  bg        : Nat := 0                       -- in force for this frame
  planes    : List PlaneView := [{}, {}]
  clut      : List (Tab Nat) := [[], []]     -- in force
  clutNext  : List (Tab Nat) := [[], []]     -- loaded, applied at the next frame start (R321)
  deriving DecidableEq, Repr

end Sys2Proof.Machine
end

