-- ==== Sys2Proof/Machine/State/Engines.lean ====
section
/-! DEFINITION. The state of the analysis engines and their clusters (chapters 11 and 12). -/
namespace Sys2Proof.Machine

/-- The engine states of Table 11-16, in code order. -/
inductive EngState where
  | stopped | running | waiting | paused | halted | faulted | gated | offline
  deriving DecidableEq, Repr

/-- A load result on its way to the D registers (R340): bundles left until it lands, and the registers it writes. -/
structure LoadRes where
  left : Nat
  dst  : List (Nat × Nat)
  deriving DecidableEq, Repr

/-- One accumulator change of a chain operation: the accumulator, whether it replaces, and the signed term (R333). -/
structure AccTerm where
  acc     : Nat
  replace : Bool
  term    : Int
  deriving DecidableEq, Repr

/-- A chain operation on its way to the view of `ACCRD` (R340). -/
structure ChainRes where
  left  : Nat
  terms : List AccTerm
  deriving DecidableEq, Repr

/-- What a branch-group operation does after its two delay slots (R338, R340). -/
inductive BranchKind where
  | to (target : Nat)
  | rets
  | rete
  | halt
  deriving DecidableEq, Repr

/-- A REPEAT in progress (R343): first bundle of the body, k - 1, iterations left, position of the next bundle. -/
structure RepeatState where
  start : Nat
  k1    : Nat
  rc    : Nat
  pos   : Nat
  deriving DecidableEq, Repr

/-- One store-buffer entry (R375): a store of bytes, or a commutative operation on a word. `op` is 0 for a store, else
the load/store operation code of Table 11-8. -/
structure StoreEnt where
  addr  : Nat
  op    : Nat
  bytes : List Byte
  deriving DecidableEq, Repr

/-- Why issue is held (R336, R338): a load whose data has not arrived, a `FENCE`, or nothing. -/
inductive Stall where
  | none | data | fence
  deriving DecidableEq, Repr

/-- The fault record (Table 11-15). -/
structure FaultRec where
  cause   : Nat := 0
  inner   : Nat := 0
  slot    : Nat := 0
  element : Nat := 255
  bundle  : Nat := 0
  address : Nat := 0
  st      : Nat := 0
  word    : Nat := 0
  lc      : Nat := 0
  loads   : Nat := 0
  chain   : Nat := 0
  deriving DecidableEq, Repr

/-- A region of a program image (R373, Table 12-3): space 0 cluster, 1 HBM; right 0 R, 1 RW, 2 C, 3 S. -/
structure Region where
  base  : Nat
  len   : Nat
  space : Nat
  right : Nat
  deriving DecidableEq, Repr

/-- What an engine holds of its program image (Table 12-4). -/
structure Program where
  cls         : Nat := 0
  determinate : Bool := false
  hd          : Nat := 8
  entry       : Nat := 0
  rate        : Nat := 0
  regions     : List Region := []
  mailboxes   : List (Nat × Nat) := []        -- mailbox, role: 0 reader, 1 writer
  ports       : List (Nat × Nat) := []        -- port, source code
  deriving DecidableEq, Repr

/-- A record waiting in an input port: its bytes not yet popped and its flags (R367, R368). -/
structure PortRec where
  bytes : List Byte
  flags : Nat
  deriving DecidableEq, Repr

/-- One input port (R367, R368). -/
structure InPort where
  recs    : List PortRec := []
  midway  : Bool := false                     -- a byte of the first record has been popped
  bind    : Nat := 0                          -- bind ordinal
  stopped : Bool := false                     -- the bound source has stopped
  deriving DecidableEq, Repr

/-- One engine. D, M and L registers are 32-bit and A, B registers 38-bit patterns (Table 11-1). -/
structure Engine where
  st        : EngState := .stopped
  loaded    : Bool := false
  prog      : Program := {}
  imem      : Tab Nat := []
  loc       : Memory := []
  d         : List Nat := List.replicate 32 0
  a         : List Nat := List.replicate 8 0
  m         : List Nat := List.replicate 8 0
  b         : List Nat := List.replicate 8 0
  l         : List Nat := List.replicate 8 0
  lc        : Nat := 0
  pc        : Nat := 0
  epc       : Nat := 0
  acc       : List Int := [0, 0, 0, 0]        -- as ACCRD sees them
  gmask     : Nat := 0
  sat       : Bool := false
  n         : Bool := false
  z         : Bool := false
  inexc     : Bool := false
  insig     : Bool := false
  svRep     : Option RepeatState := none      -- ST's REPEAT fields and pending branch of an exception (R350)
  svBranch  : Option (BranchKind × Nat) := none
  svLoads   : List LoadRes := []
  svChain   : List ChainRes := []
  xen       : Bool := false
  sen       : Bool := false
  smask     : Nat := 0
  sigp      : Nat := 0
  sign      : Nat := 0
  loads     : List LoadRes := []
  chain     : List ChainRes := []
  branch    : Option (BranchKind × Nat) := none
  rep       : Option RepeatState := none
  hold      : Nat := 0                        -- bundles since the last open boundary (R356)
  holdPeak  : Nat := 0
  stall     : Stall := .none
  buf       : List StoreEnt := []
  bundles   : Nat := 0
  faults    : Nat := 0
  fault     : FaultRec := {}
  nested    : Bool := false
  watermark : Nat := 0
  ports     : List InPort := [{}, {}, {}, {}]
  body      : List Byte := []                 -- the open product (R369)
  bodyFlags : Nat := 0
  prodSeq   : Nat := 0
  epoch     : Nat := 1
  saved     : Bool := false                   -- saved PAUSED in the reserved HBM area (R384)
  pauseGate : Bool := false                   -- pause requests (R359, R381, R384, R386)
  pauseShed : Bool := false
  pauseRoom : Bool := false
  pauseSubst : Bool := false
  substNext : Bool := false                   -- to be substituted at its next stop (R386)
  physical  : Option Nat := none              -- none: its own engine; some c: spare of CLc
  storesLost : Nat := 0
  deriving DecidableEq, Repr

/-- One cluster: shared memory, mailboxes, epoch, spare engine (0 available, 1 in use, 2 failed), power, and the
lines its cache holds with their MESI state (1 Shared, 2 Exclusive, 3 Modified; an absent line is Invalid). -/
structure Cluster where
  shared : Memory := []
  mail   : List (List Nat) := List.replicate 16 []
  epoch  : Nat := 1
  spare  : Nat := 0
  gated  : Bool := false
  cache  : List (Nat × Nat) := []
  okSeconds : Nat := 0                        -- gauge readings with headroom at zero or above (Table 12-6)
  deriving DecidableEq, Repr

end Sys2Proof.Machine
end

