-- ==== Sys2Proof/Machine/State/Hbm.lean ====
section
/-! DEFINITION. The state of the HBM3 controller (chapter 13) and of the error log, health and ageing (chapter 17). -/
namespace Sys2Proof.Machine

/-- One DRAM bank: open row, last row accessed, 2-bit predictor, accesses in the current window (R397, R400). -/
structure Bank where
  openRow : Option Nat := none
  lastRow : Option Nat := none
  pred    : Nat := 2
  count   : Nat := 0
  deriving DecidableEq, Repr

/-- The state of a stack's self-refresh (Table 13-7). -/
inductive SrState where
  | active | entering | selfRefresh | exiting
  deriving DecidableEq, Repr

/-- One HBM stack (Table 13-7). -/
structure HbmStack where
  trained    : Bool := false
  retrained  : Bool := false
  repaired   : Nat := 0
  sr         : SrState := .active
  srInWindow : Bool := false                 -- spent time in self-refresh in this window (R400)
  srExits    : Nat := 0
  ceSeen     : Bool := false
  poisonSeen : Bool := false
  ce         : Nat := 0
  ue         : Nat := 0
  centred    : Nat := 0                      -- eye re-centrings since training (R410)
  deriving DecidableEq, Repr

/-- The HBM controller: contents, poisoned lines, facets, queues and counters. -/
structure HbmUnit where
  mem       : Memory := []
  poisoned  : List Nat := []                 -- line numbers, ascending
  patched   : Tab Nat := []                  -- bytes of a poisoned line overwritten since (R372), as a bitmap
  facets    : List Nat := []                 -- in force at and above the boundary; empty: the defaults (R393)
  newFacets : List Nat := []                 -- the set a live HBM_REHASH installs
  hbmStacks    : List HbmStack := List.replicate 4 {}
  banks     : Tab Bank := []                 -- by bank index
  queues    : Tab (List HbmReq) := []        -- by pseudo-channel, in arrival order
  held      : Tab (List HbmReq) := []        -- requests that ports hold for a full queue (R399)
  smpPoison : Bool := false                  -- the stage manager has received poison (Table 13-4)
  slots     : Tab Nat := []                  -- command slots counted, modulo 4, by pseudo-channel (R395)
  late      : Tab Nat := []
  bytes     : Tab Nat := []
  imbalance : Nat := 0
  hotBank   : Nat := 0
  run       : Nat := 0                       -- windows above 4 in the run (R400)
  scrubPos  : Nat := 0
  deriving DecidableEq, Repr

/-- An entry of the error log (Table 17-6). State: 0 QUEUED, 1 RECOVERING, 2 RESOLVED, 3 OFFLINE, 4 FATAL. -/
structure ErrEntry where
  seq    : Nat
  code   : Nat
  fatal  : Bool
  st     : Nat
  kind   : Nat
  rep    : Bool
  inst   : Nat
  ord    : Option Nat
  time   : Option Nat
  detail : Nat
  deriving DecidableEq, Repr

/-- A unit with an error that awaits recovery (R493), and the sequence of its entry, 0 where the log had no room. -/
structure ErrUnit where
  kind : Nat
  inst : Nat
  code : Nat
  seq  : Nat
  deriving DecidableEq, Repr

/-- A reduction in force (Table 17-3): order 0 a, 1 b, 2 c; the stream or zoom source code; the hop code before. -/
structure Reduction where
  order : Nat
  code  : Nat
  prev  : Nat
  deriving DecidableEq, Repr

/-- What the day's ageing entry gathers (Table 17-5). -/
structure DayFacts where
  replan : Bool := false
  met    : Bool := false
  warn   : Bool := false
  skew   : Bool := false
  low    : List Nat := [0, 0, 0, 0]           -- lowest g_q, 0 before the first reading
  tmax   : List Int := [-32768, -32768, -32768, -32768]
  tsum   : List Int := [0, 0, 0, 0]
  tn     : List Nat := [0, 0, 0, 0]
  hot    : Nat := 0
  sheds  : Nat := 0
  errors : Nat := 0
  room   : Int := 0
  deriving DecidableEq, Repr

/-- Health, ageing and the error log (chapter 17). -/
structure HealthUnit where
  log       : List ErrEntry := []
  seq       : Nat := 0
  overflow  : Nat := 0
  queue     : List ErrUnit := []              -- units in error, in order; the first is recovering
  offline   : List (Nat × Nat) := []          -- units offline: kind and instance (R494)
  setpoint  : List Nat := [900, 900, 900, 900]
  oldSet    : List Nat := [900, 900, 900, 900] -- the reference of the monitors until regulation (R116)
  frozen    : List Bool := [false, false, false, false]
  noAnswer  : List Nat := [0, 0, 0, 0]
  waiting   : List Bool := [false, false, false, false]  -- a setpoint write not yet in regulation
  volts     : List Nat := [0, 0, 0, 0]
  temps     : List Int := [0, 0, 0, 0]
  current   : List Nat := [0, 0, 0, 0]
  gauges    : Tab Nat := []                    -- factors, 2^-14; unlisted: 0
  failed    : List Nat := []                   -- gauges failed until reset
  factor    : List Nat := [0, 0, 0, 0]   -- g_q
  replanF   : List Nat := [0, 0, 0, 0]   -- G_q
  rho       : Tab Nat := []                    -- by monitor number; unlisted: 2^14
  lowRuns   : List Nat := [0, 0, 0, 0, 0]      -- consecutive readings below target, by resource (R484)
  reductions : List Reduction := []            -- latest first
  minutes   : Nat := 0                         -- powered minutes of the day in progress
  life      : Nat := 0                         -- life used, minutes × 2^16
  hours     : Nat := 0
  day       : Nat := 0
  today     : DayFacts := {}
  ageing    : List (List Byte) := []           -- entries, oldest first
  deriving DecidableEq, Repr

end Sys2Proof.Machine
end

