-- ==== Sys2Proof/Machine/State/Host.lean ====
section
/-! DEFINITION. The state of the host link and DMA (chapter 14), and of the auxiliary converter, comparators and
precision DACs (chapter 15). -/
namespace Sys2Proof.Machine

/-- The states of a DMA channel (Table 14-4), in code order. -/
inductive DmaState where
  | idle | running | stopping | stopped | halted | ended
  deriving DecidableEq, Repr

/-- A descriptor as fetched (Table 14-6). -/
structure Descriptor where
  addr    : Nat
  buf     : Nat
  len     : Nat
  irq     : Bool
  last    : Bool
  next    : Nat
  deriving DecidableEq, Repr

/-- A direct transfer of `DMA_COPY` in progress (R436), and the channel's state before it. -/
structure Direct where
  host   : Nat
  hbm    : Nat
  len    : Nat
  toHost : Bool
  before : DmaState
  deriving DecidableEq, Repr

/-- One DMA channel. `data` is what its stream users have for it and have not yet confirmed, by whole items; an item
without bytes marks where a user was released (R429). -/
structure DmaChannel where
  st        : DmaState := .idle
  user      : Nat := 0                        -- Table 14-4: 0 none, 1 capture, 2 export, 3 lattice, 4 load, 5 copy
  owner     : Nat := 0                        -- the unit, operation handle or engine bitmap the user is
  fromHost  : Bool := false
  error     : Nat := 0
  completed : Nat := 0
  waiting   : Bool := false
  next      : Option Nat := none              -- address of the next descriptor of the chain
  desc      : Option Descriptor := none       -- the descriptor in progress
  direct    : Option Direct := none
  data      : List (List Byte × Bool × Nat) := []  -- items waiting: bytes, ends a record, capture unit + 1 or 0
  flushDue  : Bool := false
  bytes     : Nat := 0                        -- confirmed bytes since reset
  deriving DecidableEq, Repr

/-- The host link: LINK_STATUS, STICKY, interrupts, channels and the ring window. -/
structure HostUnit where
  up       : Bool := false
  gen      : Nat := 0
  width    : Nat := 0
  flit     : Bool := false
  bme      : Bool := false                    -- Bus Master Enable
  parked   : List Output := []                -- requests held while Bus Master Enable is 0 (R418)
  alive    : Nat := 0
  sticky   : Nat := 0
  stickyIrq : Nat := 0
  holdoff  : Nat := 0
  holding  : List Bool := [false, false]      -- IRQ_HOLDOFF of vectors 0 and 1 has not passed since they last fired
  due      : List Bool := [false, false]      -- an advance waits for the holdoff
  masked   : List Nat := List.range 64        -- MSI-X vectors masked
  funcMask : Bool := true
  msix     : Memory := []                     -- MSI-X table entries as written
  pba      : List Nat := []                   -- pending bits
  downs    : Nat := 0
  chans    : List DmaChannel := List.replicate 32 {}
  window   : Memory := []                     -- the ring window, 256 KiB
  deriving DecidableEq, Repr

/-- One auxiliary sequence entry. -/
structure AuxEntry where
  gain    : Nat := 0                          -- in force for its slots (R445)
  settled : Nat := 4                          -- results taken at the gain in force, up to 4
  isOpen  : Bool := false
  ovrSeen : Bool := false
  result  : Nat := 0
  deriving DecidableEq, Repr

/-- The auxiliary converter (R439 to R450). -/
structure AuxUnit where
  running  : Bool := false
  stopping : Bool := false
  next     : Nat := 0                         -- number of the next result
  gapSeen  : Bool := false
  ovrSeen  : Bool := false
  entries  : List AuxEntry := List.replicate 16 {}
  buf      : ProducerBuf := {}
  deriving DecidableEq, Repr

/-- The states of a comparator (R452), in code order. -/
inductive CmpState where
  | below | inside | above
  deriving DecidableEq, Repr

/-- One comparator. -/
structure Comparator where
  enabled : Bool := false
  st      : CmpState := .below
  sticky  : Nat := 0                          -- [0] RISE_HIGH, [1] FALL_LOW, [2] ENTER, [3] LEAVE
  edges   : Nat := 0
  deriving DecidableEq, Repr

/-- One precision DAC (R455 to R459). -/
structure Pdac where
  span      : Nat := 0                        -- commanded
  code      : Nat := 0
  outSpan   : Nat := 0                        -- driven
  outCode   : Nat := 0
  cleared   : Bool := true
  held      : Bool := false
  compliance : Bool := false
  complianceSeen : Bool := false
  lateSeen  : Bool := false
  measured  : Int := 0
  deriving DecidableEq, Repr

/-- A scheduled change of a precision DAC: due ordinal, span and code written, and the tag of its command. -/
structure PdacDue where
  pdac : Nat
  ord  : Option Nat
  span : Option Nat
  code : Option Nat
  tag  : Nat
  told : Bool := false                        -- the discard of its command has been posted (Table 1-10)
  deriving DecidableEq, Repr

/-- The precision DAC island. -/
structure PdacUnit where
  dacs   : List Pdac := List.replicate 8 {}
  due    : List PdacDue := []
  clrLow : Bool := false                      -- CLR_N is low
  deriving DecidableEq, Repr

end Sys2Proof.Machine
end

