-- ==== Sys2Proof/Machine/State/Timing.lean ====
section
/-! DEFINITION. The state of the time-interval unit (chapter 16), the redundant pair (chapter 18), the test access
port, firmware and keys (chapter 20). -/
namespace Sys2Proof.Machine

/-- A stamp (Table 16-2) with its flags as bits of byte 40. Times are in 2^-32 s. -/
structure Stamp where
  number : Nat
  t      : Nat
  ord    : Nat
  frac   : Nat
  time   : Nat
  source : Nat
  flags  : Nat
  deriving DecidableEq, Repr

/-- One stamp input (R460 to R471). -/
structure TiuInput where
  issued   : Nat := 0                        -- stamp numbers issued (`tiu.stamps`)
  dead     : Nat := 0
  fifo     : List Stamp := []
  calSeen  : Bool := false
  gapSeen  : Bool := false
  deadSeen : Bool := false
  dropping : Option Nat := none              -- first lost stamp number of a gap in progress
  gaps     : Nat := 0
  lastEdge : Option Nat := none              -- local time of the previous selected edge of a comparator channel (R463)
  deriving DecidableEq, Repr

/-- A tick (R466): a cue channel ordinal and its local time. -/
structure Tick where
  ord : Nat
  t   : Nat
  deriving DecidableEq, Repr

/-- A time anchor (R39, R468): the ordinal nearest the edge, the edge's offset from it in 2^-32 ordinals, TIME80 in
2^-32 s, flags. -/
structure Anchor where
  ord      : Nat
  offset   : Int
  time     : Nat
  chan     : Nat
  holdover : Bool
  paired   : Bool
  deriving DecidableEq, Repr

/-- One interval statistics unit (R472, R473). -/
structure StatUnit where
  collecting : Bool := false
  isOpen     : Option Nat := none            -- T of the start stamp of the open interval
  n          : Nat := 0
  s1         : Nat := 0
  s2         : Nat := 0
  lo         : Nat := 0
  hi         : Nat := 0
  discards   : Nat := 0
  mean       : Nat := 0                      -- latched results
  sd         : Nat := 0
  min        : Nat := 0
  max        : Nat := 0
  deriving DecidableEq, Repr

/-- The time-interval unit. -/
structure TiuUnit where
  inputs  : List TiuInput := List.replicate 32 {}
  ticks   : Option (Tick × Tick) := none     -- the two latest, older first
  lastT   : Nat := 0                         -- local time of the latest stamp
  ppsT    : Option Nat := none               -- local time and TIME80 of the last good PPS edge (R467)
  ppsTime : Nat := 0
  anchor  : Option Anchor := none            -- the two latest anchors
  anchorB : Option Anchor := none
  rateMhz : Nat := 0                         -- rate measured between them, mHz (R39)
  stats   : List StatUnit := List.replicate 4 {}
  deriving DecidableEq, Repr

/-- A shadowed extent (R512): its serial in `Store.extents`, its unit, the play offset of its first payload byte, its
payload bytes, and its bytes in the ring. -/
structure Shadow where
  serial : Nat
  unit   : Nat
  first  : Nat
  bytes  : Nat
  ring   : Nat
  deriving DecidableEq, Repr

/-- The check extent that a LEAD gathers (R514): codes and bits as sampled, the coefficient sets at its first ordinal and the
updates since, the phase of each zoom; `lost`: it includes a lost ordinal. -/
structure ExtentDraft where
  chan    : Nat
  x       : Nat
  codes   : List (BitVec 12) := []
  flags   : List Bool := []
  coefs   : List (Nat × List Byte) := []
  updates : List (Nat × Nat × List Byte) := []
  phases  : List (Nat × Nat) := []
  lost    : Bool := false
  deriving DecidableEq, Repr

/-- The redundant pair (chapter 18). -/
structure PairUnit where
  role      : Nat := 0                       -- 0 SOLO, 1 LEAD, 2 UNDERSTUDY
  lanes     : Nat := 0
  link      : Bool := false
  split     : Bool := false
  sync      : Bool := false
  heartbeat : Bool := false
  peerAlive : Bool := false
  peerLead  : Bool := false
  peerRole  : Nat := 0
  peerTerm  : Nat := 0
  peerSerial : Nat := 0
  peerMode   : Nat := 0                      -- as its last heartbeat tells: mode code, a channel runs, PPS_IN qualified
  peerRuns   : Bool := false
  peerPps    : Bool := false
  term      : Nat := 0
  aligning  : Option Nat := none             -- start second of an alignment in progress (R506); 0 in a resynchronisation
  started   : Bool := false                  -- its START has been performed
  lostBy    : Nat := 0                       -- why synchronisation was last lost; 0 since it was gained
  markFirst : Nat := 0                       -- ordinal of this device's first marker pulse (R507)
  heard     : List Nat := []                 -- assigned ordinals of the peer's pulses, 2^-16 ordinals
  mine      : Option Int := none             -- mean of b - a measured here, 2^-16 ordinals (R507)
  theirs    : Option Int := none
  offset    : Int := 0                       -- δ, 2^-16 ordinals
  e         : Option Nat := none             -- E
  errors    : Nat := 0
  shadow    : List Shadow := []              -- shadowed extents, oldest first (R512)
  play      : List Nat := List.replicate 16 0    -- play offset of each unit
  confirmed : List Nat := List.replicate 16 0    -- confirmed play offset on the LEAD (R513)
  checks    : Nat := 0
  skipped   : Nat := 0
  checkChan : Nat := 0                       -- channel of the last check extent (R514)
  nextX     : Nat := 0
  draft     : Option ExtentDraft := none     -- the extent being gathered
  verdict   : Bool := false                  -- a verdict request is outstanding (R516)
  takeover  : Nat := 0
  markDue   : List (Option Nat) := List.replicate 16 none  -- confirmed offsets to store in a unit's next record (R517)
  outHeld   : Bool := false                  -- outputs held (R503)
  aliveToggling : Bool := false              -- this device's own ALIVE (R505)
  aliveLevel    : Bool := false
  deriving DecidableEq, Repr

/-- The instructions of Table 20-1. -/
inductive TapInstr where
  | extest | samplePreload | idcode | highz | clamp | extestPulse | extestTrain | dbgAccess | bypass
  deriving DecidableEq, Repr

/-- The test access port (R550, R551): the instruction in force, and the registers it shifts. -/
structure TapUnit where
  instr    : TapInstr := .idcode
  boundary : List Bool := []                 -- the boundary register's latched contents
  bypass   : Bool := false
  ident    : Nat := 0
  debug    : Nat := 0                        -- the 64-bit debug port
  driving  : Bool := false                   -- balls driven from the boundary register (R551)
  highz    : Bool := false
  deriving DecidableEq, Repr

/-- Firmware, fuses, debug and store keys (R553 to R562). -/
structure SecUnit where
  slots      : List (Option SlotImage) := [none, none]   -- the two image slots, as verified
  selected   : Nat := 0
  trial      : Bool := false
  selSeq     : Nat := 0
  counter    : Nat := 0                      -- the anti-rollback fuses
  revoked    : List Nat := []                -- fused public keys revoked or absent
  nonce      : Option (List Byte) := none
  debug      : Option Nat := none            -- scope, once unlocked
  keys       : List Nat := [0, 0, 0, 0]      -- key IDs; 0: an empty slot
  firmware   : Nat := 0                      -- running image version; 0: none
  rollback   : Nat := 0                      -- running image's rollback index
  deriving DecidableEq, Repr

end Sys2Proof.Machine
end

