-- ==== Sys2Proof/Machine/State.lean ====
section
/-! DEFINITION. The whole state of the OL9640 as plain data, its reasons to stop, and the state after reset. -/
namespace Sys2Proof.Machine

/-- Reasons to stop with a fault. The spec gives every command an effect in every state (a command it does not serve
is answered or ignored), so no meaning faults. -/
inductive Fault where
  /-- Raised by no command. Safe: the machine never stops with a fault. -/
  | none
  deriving DecidableEq, Repr

/-- Reasons to refuse a command. -/
inductive Refusal where
  /-- Raised by the dispatcher for a command that has no meaning in the model yet. Safe: the machine stops. -/
  | notModelled (mnemonic : String)
  deriving DecidableEq, Repr

/-- The configuration saved at entry to SERVICE (R104): parameters, tables and coefficient sets. -/
structure SavedConfig where
  params   : Tab Nat
  images   : List (List Byte)                 -- cue sheets
  masks    : List Mask
  windows  : List (Tab Nat)
  dus      : List DensityUnit                 -- for their palettes and maps
  cluts    : List (List (Tab Nat))
  coefs    : List (CoefSet × Option CoefSet)
  deriving DecidableEq, Repr

/-- The state of the OL9640: everything the spec gives the part, the queue of waiting commands, and three fields of the
model's own (`out`, `fresh`, and the identity facts that fuses and straps hold). -/
structure State where
  pending  : List Instr := []                 -- the queue of waiting commands, first in, first out
  variant  : Variant := .f
  die      : Nat := 1                         -- silicon stepping (Table 2-11)
  serial   : Nat := 0                         -- device serial number
  mgmtAddr : Nat := 0                         -- MGMT_ADDR straps as sampled (R88)
  ring     : Rings := {}
  spi      : Mailbox := {}
  smbus    : Mailbox := {}
  ev       : EventUnit := {}
  params   : Tab Nat := []                    -- RW parameters written since reset: id × 65,536 + instance
  pend     : List PendChange := []            -- accepted AT_ORDINAL changes, in acceptance order (R34)
  cued     : List (Nat × Nat × Nat) := []     -- parameter, instance, cue ordinal: changes that a unit has taken and not reached (R70)
  unplayed : List (Nat × Nat × Nat) := []     -- id × 65,536 + instance, ordinal, old value: changes above the played ordinal (R70)
  ops      : List LongOp := []                -- live operations, and the 32 most recent terminal ones (R77, R80)
  nextHandle : Nat := 1
  md       : ModeUnit := {}
  chans    : List Channel := [{}, {}, {}, {}]
  clk      : ClockUnit := {}
  gates    : List Gate := [{}, {}]
  zooms    : List Zoom := List.replicate 32 {}
  streams  : List Stream := List.replicate 16 {}
  tus      : List XfUnit := List.replicate 16 {}
  cue      : CueUnit := {}
  caps     : List CapUnit := List.replicate 16 {}
  store    : Store := {}
  reduce   : ReducePolicy := {}
  dus      : List DensityUnit := List.replicate 4 {}
  disps    : List DisplayOut := List.replicate 3 {}
  engines  : Tab Engine := []                 -- an unlisted engine is in its reset state
  clusters : Tab Cluster := []                -- an unlisted cluster is in its reset state
  hbm      : HbmUnit := {}
  host     : HostUnit := {}
  aux      : AuxUnit := {}
  cmps     : List Comparator := List.replicate 16 {}
  pdac     : PdacUnit := {}
  tiu      : TiuUnit := {}
  health   : HealthUnit := {}
  saved    : Option SavedConfig := none       -- while in SERVICE
  pair     : PairUnit := {}
  tap      : TapUnit := {}
  sec      : SecUnit := {}
  fresh    : Nat := 0                         -- free values taken so far (the model's own)
  out      : List Output := []                -- what has left the device (the model's own)
  deriving DecidableEq, Repr

/-- The machine right after reset: BOOT, with TARGET IDLE and TRANSIT set (Table 3-3), and every register at the reset
value its table gives. The step that brings it to IDLE is `BOOT_COMPLETE`, after `RST_N_RELEASE`. -/
def State.reset : State := {}

end Sys2Proof.Machine
end

