-- ==== Sys2Proof/Machine/Params.lean ====
section
/-! DEFINITION. The parameters: one row per parameter of the chapters' tables (R67 to R70, R564), with its instances,
access, width, reset value and the range or reserved bits that its table gives. -/
namespace Sys2Proof.Machine

/-- The accesses of a parameter. -/
inductive ParamAccess where
  | rw | ro | w1c
  deriving DecidableEq, Repr

/-- What a written value must meet by its table alone: nothing, a range, or a set of defined bits. For a W1C parameter
the mask is that of its W1C fields. -/
inductive ParamRange where
  | any
  | rng (lo hi : Int)
  | mask (m : Nat)
  deriving DecidableEq, Repr

/-- A row of a parameter table. -/
structure ParamRow where
  id     : Nat
  lo     : Nat
  hi     : Nat
  acc    : ParamAccess
  width  : Nat
  signed : Bool
  reset  : Nat
  range  : ParamRange
  deriving DecidableEq, Repr

/-- Class 0x00. -/
def paramRows00 : List ParamRow :=
  [⟨0x0010, 0, 0, .rw, 8, false, 0, .rng 0 3⟩,
   ⟨0x0011, 0, 4, .ro, 64, true, 0, .any⟩,
   ⟨0x0012, 0, 4, .ro, 64, false, 0, .any⟩,
   ⟨0x0013, 0, 4, .ro, 64, false, 0, .any⟩,
   ⟨0x0014, 0, 1, .rw, 32, false, 6, .mask 2097143⟩,
   ⟨0x0015, 0, 0, .rw, 32, false, 2097143, .mask 2097143⟩,
   ⟨0x0016, 0, 0, .ro, 64, false, 0, .any⟩,
   ⟨0x0017, 0, 0, .rw, 32, false, 1, .mask 63⟩,
   ⟨0x0018, 0, 0, .rw, 8, false, 1, .rng 1 3⟩,
   ⟨0x0019, 0, 0, .rw, 8, false, 0, .rng 0 1⟩,
   ⟨0x001A, 0, 0, .rw, 32, false, 0, .any⟩,
   ⟨0x001B, 0, 0, .ro, 64, false, 0, .any⟩,
   ⟨0x001C, 0, 0, .ro, 64, false, 0, .any⟩,
   ⟨0x001D, 0, 0, .ro, 64, false, 0, .any⟩,
   ⟨0x001E, 1, 5, .ro, 64, false, 0, .any⟩,
   ⟨0x001F, 0, 0, .ro, 64, false, 0, .any⟩]

/-- Class 0x02. -/
def paramRows02 : List ParamRow :=
  [⟨0x0201, 0, 0, .ro, 64, false, 0, .any⟩,
   ⟨0x0202, 0, 0, .ro, 64, false, 0, .any⟩]

/-- Class 0x04. -/
def paramRows04 : List ParamRow :=
  [⟨0x0401, 0, 3, .rw, 64, false, 10000000000, .rng 2500000000 10000000000⟩,
   ⟨0x0402, 0, 3, .rw, 8, false, 0, .rng 0 1⟩,
   ⟨0x0403, 0, 3, .rw, 8, false, 0, .rng 0 3⟩,
   ⟨0x0404, 0, 0, .rw, 8, false, 0, .rng 0 1⟩,
   ⟨0x0405, 0, 3, .rw, 8, false, 0, .rng 0 1⟩,
   ⟨0x0406, 0, 3, .rw, 8, false, 1, .rng 1 2⟩,
   ⟨0x0407, 0, 3, .rw, 8, false, 1, .rng 0 1⟩,
   ⟨0x0409, 0, 3, .rw, 16, true, 18446744073709551016, .rng (-800) (-100)⟩,
   ⟨0x040A, 0, 3, .w1c, 32, false, 0, .mask 4⟩,
   ⟨0x040B, 0, 3, .ro, 64, false, 0, .any⟩]

/-- Class 0x05. -/
def paramRows05 : List ParamRow :=
  [⟨0x0501, 0, 0, .rw, 8, false, 0, .rng 0 2⟩,
   ⟨0x0503, 0, 0, .w1c, 32, false, 0, .mask 3072⟩,
   ⟨0x0504, 0, 3, .w1c, 32, false, 0, .mask 8⟩,
   ⟨0x0505, 0, 3, .ro, 64, false, 0, .any⟩,
   ⟨0x0507, 0, 3, .rw, 32, true, 0, .rng (-32768) 32767⟩,
   ⟨0x0508, 0, 0, .ro, 64, false, 0, .any⟩,
   ⟨0x0509, 0, 0, .ro, 64, false, 0, .any⟩,
   ⟨0x0520, 0, 1, .rw, 8, false, 0, .rng 0 1⟩,
   ⟨0x0521, 0, 1, .rw, 64, false, 0, .any⟩,
   ⟨0x0522, 0, 1, .rw, 64, false, 1000000, .rng 2 281474976710656⟩,
   ⟨0x0523, 0, 1, .rw, 64, false, 100, .rng 1 281474976710655⟩,
   ⟨0x0524, 0, 1, .rw, 32, false, 0, .any⟩,
   ⟨0x0525, 0, 1, .rw, 32, false, 0, .rng 0 65535⟩,
   ⟨0x0526, 0, 1, .ro, 64, false, 0, .any⟩]

/-- Class 0x06. -/
def paramRows06 : List ParamRow :=
  [⟨0x0601, 0, 31, .rw, 8, false, 0, .rng 0 1⟩,
   ⟨0x0602, 0, 31, .rw, 16, false, 256, .rng 256 259⟩,
   ⟨0x0603, 0, 31, .rw, 48, true, 0, .any⟩,
   ⟨0x0604, 0, 31, .rw, 48, false, 0, .any⟩,
   ⟨0x0605, 0, 31, .rw, 8, false, 0, .rng 0 1⟩,
   ⟨0x0610, 0, 31, .rw, 8, false, 2, .rng 0 7⟩,
   ⟨0x0611, 0, 3, .rw, 8, false, 4, .rng 0 14⟩,
   ⟨0x0612, 0, 31, .rw, 32, false, 0, .mask 268435455⟩,
   ⟨0x0613, 0, 31, .rw, 8, false, 0, .rng 0 1⟩,
   ⟨0x0614, 0, 3, .rw, 8, false, 0, .rng 0 1⟩,
   ⟨0x0615, 0, 3, .rw, 64, false, 1099511627776, .rng 549755813888 1099511627776⟩,
   ⟨0x0620, 0, 31, .w1c, 32, false, 0, .mask 131071⟩,
   ⟨0x0621, 0, 31, .ro, 64, false, 0, .any⟩,
   ⟨0x0622, 0, 31, .ro, 64, false, 0, .any⟩,
   ⟨0x0623, 0, 31, .ro, 64, false, 0, .any⟩,
   ⟨0x0624, 0, 31, .ro, 64, false, 0, .any⟩]

/-- Class 0x07. -/
def paramRows07 : List ParamRow :=
  [⟨0x0701, 0, 15, .rw, 8, false, 0, .rng 0 1⟩,
   ⟨0x0702, 0, 15, .rw, 16, false, 256, .any⟩,
   ⟨0x0703, 0, 15, .rw, 16, false, 15, .rng 1 65535⟩,
   ⟨0x0704, 0, 15, .rw, 8, false, 10, .rng 6 20⟩,
   ⟨0x0705, 0, 15, .rw, 8, false, 2, .rng 0 3⟩,
   ⟨0x0706, 0, 15, .rw, 8, false, 3, .rng 0 7⟩,
   ⟨0x0707, 0, 15, .rw, 16, false, 8600, .rng 0 20000⟩,
   ⟨0x0708, 0, 15, .rw, 16, false, 2500, .rng 500 8000⟩,
   ⟨0x0709, 0, 15, .rw, 8, false, 2, .mask 7⟩,
   ⟨0x070A, 0, 15, .rw, 32, false, 0, .rng 0 1048575⟩,
   ⟨0x070B, 0, 15, .rw, 32, false, 0, .rng 0 1048576⟩,
   ⟨0x070C, 0, 15, .rw, 8, false, 0, .rng 0 4⟩,
   ⟨0x070D, 0, 15, .rw, 8, false, 0, .rng 0 24⟩,
   ⟨0x0720, 0, 15, .rw, 8, false, 0, .any⟩,
   ⟨0x0721, 0, 15, .rw, 32, false, 0, .rng 0 16777215⟩,
   ⟨0x0722, 0, 15, .rw, 32, false, 1, .rng 1 65536⟩,
   ⟨0x0723, 0, 15, .rw, 32, false, 10000, .rng 1 10000000⟩,
   ⟨0x0728, 0, 15, .ro, 64, false, 0, .any⟩,
   ⟨0x0729, 0, 15, .ro, 64, false, 0, .any⟩,
   ⟨0x072A, 0, 15, .ro, 64, false, 0, .any⟩,
   ⟨0x072B, 0, 15, .ro, 64, false, 0, .any⟩,
   ⟨0x072C, 0, 15, .ro, 64, false, 0, .any⟩,
   ⟨0x072D, 0, 15, .ro, 64, false, 0, .any⟩,
   ⟨0x072E, 0, 15, .ro, 64, false, 0, .any⟩,
   ⟨0x072F, 0, 15, .ro, 64, false, 0, .any⟩,
   ⟨0x0730, 0, 15, .ro, 64, false, 0, .any⟩,
   ⟨0x0731, 0, 15, .ro, 64, false, 0, .any⟩,
   ⟨0x0732, 0, 15, .ro, 64, false, 0, .any⟩]

/-- Class 0x08. -/
def paramRows08 : List ParamRow :=
  [⟨0x0801, 0, 7, .w1c, 32, false, 0, .mask 6144⟩,
   ⟨0x0802, 0, 7, .ro, 64, false, 0, .any⟩,
   ⟨0x0803, 0, 7, .ro, 64, false, 0, .any⟩,
   ⟨0x0804, 0, 7, .ro, 64, false, 0, .any⟩,
   ⟨0x0805, 0, 7, .rw, 32, false, 5000, .rng 1000 900000⟩,
   ⟨0x0806, 0, 7, .rw, 8, false, 0, .rng 0 1⟩,
   ⟨0x0808, 0, 63, .rw, 64, false, 0, .mask 131071⟩,
   ⟨0x0809, 0, 63, .ro, 64, false, 0, .any⟩,
   ⟨0x080A, 0, 63, .ro, 64, false, 0, .any⟩,
   ⟨0x080B, 0, 7, .rw, 64, false, 0, .any⟩,
   ⟨0x080C, 0, 7, .rw, 64, false, 0, .any⟩,
   ⟨0x0818, 0, 15, .rw, 16, false, 0, .any⟩,
   ⟨0x0819, 0, 15, .rw, 32, true, 0, .any⟩,
   ⟨0x081A, 0, 15, .rw, 32, true, 0, .any⟩,
   ⟨0x0820, 0, 15, .rw, 16, false, 768, .rng 768 783⟩,
   ⟨0x0821, 0, 15, .rw, 8, false, 0, .rng 0 1⟩,
   ⟨0x0822, 0, 15, .rw, 32, false, 0, .rng 0 1048575⟩,
   ⟨0x0823, 0, 15, .rw, 32, false, 1024, .rng 1 65536⟩,
   ⟨0x0824, 0, 15, .rw, 8, false, 1, .rng 1 3⟩,
   ⟨0x0825, 0, 15, .rw, 32, false, 1, .rng 1 65536⟩,
   ⟨0x0826, 0, 15, .ro, 64, false, 0, .any⟩,
   ⟨0x0830, 0, 3, .rw, 32, false, 25000, .rng 25000 1000000⟩,
   ⟨0x0831, 0, 3, .rw, 32, false, 1000, .rng 10 1000000000⟩,
   ⟨0x0832, 0, 3, .ro, 64, false, 0, .any⟩,
   ⟨0x0833, 0, 3, .ro, 64, false, 0, .any⟩]

/-- Class 0x09. -/
def paramRows09 : List ParamRow :=
  [⟨0x0901, 0, 15, .rw, 8, false, 0, .rng 0 1⟩,
   ⟨0x0902, 0, 15, .rw, 16, false, 256, .any⟩,
   ⟨0x0903, 0, 15, .rw, 8, false, 0, .rng 0 2⟩,
   ⟨0x0904, 0, 15, .rw, 64, false, 0, .any⟩,
   ⟨0x0905, 0, 15, .rw, 64, false, 1000000, .rng 1 281474976710656⟩,
   ⟨0x0906, 0, 15, .rw, 16, false, 16, .rng 1 65535⟩,
   ⟨0x0907, 0, 15, .rw, 64, false, 0, .rng 0 281474976710656⟩,
   ⟨0x0908, 0, 15, .rw, 64, false, 10000000000, .rng 1048576 281474976710656⟩,
   ⟨0x0909, 0, 15, .rw, 64, false, 0, .any⟩,
   ⟨0x090A, 0, 15, .rw, 8, false, 0, .rng 0 7⟩,
   ⟨0x090B, 0, 15, .rw, 8, false, 0, .rng 0 1⟩,
   ⟨0x090C, 0, 15, .rw, 8, false, 0, .rng 0 31⟩,
   ⟨0x090D, 0, 15, .rw, 8, false, 8, .rng 0 15⟩,
   ⟨0x090E, 0, 15, .rw, 8, false, 0, .rng 0 7⟩,
   ⟨0x090F, 0, 15, .rw, 48, true, 0, .any⟩,
   ⟨0x0910, 0, 15, .rw, 8, false, 1, .rng 0 1⟩,
   ⟨0x0911, 0, 15, .rw, 64, false, 2147483648, .rng 268435456 18446744073709551615⟩,
   ⟨0x0912, 0, 0, .rw, 64, false, 34359738368, .rng 1073741824 68719476736⟩,
   ⟨0x0918, 0, 15, .ro, 64, false, 0, .any⟩,
   ⟨0x0919, 0, 15, .ro, 64, false, 0, .any⟩,
   ⟨0x091A, 0, 15, .ro, 64, false, 0, .any⟩,
   ⟨0x091B, 0, 15, .ro, 64, false, 0, .any⟩,
   ⟨0x091C, 0, 15, .ro, 64, false, 0, .any⟩,
   ⟨0x091D, 0, 0, .ro, 64, false, 0, .any⟩]

/-- Class 0x0A. -/
def paramRows0A : List ParamRow :=
  [⟨0x0A01, 0, 0, .ro, 64, false, 0, .any⟩,
   ⟨0x0A02, 0, 0, .ro, 64, false, 0, .any⟩,
   ⟨0x0A03, 0, 0, .ro, 64, false, 0, .any⟩,
   ⟨0x0A04, 0, 0, .rw, 8, false, 0, .rng 0 1⟩,
   ⟨0x0A05, 0, 0, .rw, 32, false, 1000, .rng 10 10000⟩,
   ⟨0x0A06, 0, 0, .rw, 32, false, 2000, .rng 100 10000⟩,
   ⟨0x0A07, 0, 0, .ro, 64, false, 0, .any⟩,
   ⟨0x0A08, 0, 0, .ro, 64, false, 0, .any⟩,
   ⟨0x0A09, 0, 0, .ro, 64, false, 0, .any⟩,
   ⟨0x0A0A, 0, 7, .ro, 64, false, 0, .any⟩]

/-- Class 0x0B. -/
def paramRows0B : List ParamRow :=
  [⟨0x0B01, 0, 3, .rw, 16, false, 0, .any⟩,
   ⟨0x0B02, 0, 3, .rw, 16, false, 1024, .rng 1 2048⟩,
   ⟨0x0B03, 0, 3, .rw, 16, false, 1024, .rng 1 1024⟩,
   ⟨0x0B04, 0, 3, .rw, 32, false, 0, .rng 0 1048575⟩,
   ⟨0x0B05, 0, 3, .rw, 8, false, 1, .rng 1 64⟩,
   ⟨0x0B06, 0, 3, .rw, 8, false, 0, .rng 0 1⟩,
   ⟨0x0B07, 0, 3, .rw, 16, false, 18000, .any⟩,
   ⟨0x0B08, 0, 3, .rw, 16, false, 10, .rng 1 6400⟩,
   ⟨0x0B09, 0, 3, .rw, 8, false, 0, .rng 0 1⟩,
   ⟨0x0B0A, 0, 3, .rw, 16, false, 256, .rng 1 65535⟩,
   ⟨0x0B0B, 0, 3, .rw, 8, false, 1, .rng 0 1⟩,
   ⟨0x0B0C, 0, 3, .rw, 16, false, 60000, .any⟩,
   ⟨0x0B0D, 0, 3, .rw, 32, false, 262144, .rng 1 4294967295⟩,
   ⟨0x0B0E, 0, 3, .rw, 8, false, 1, .rng 0 2⟩,
   ⟨0x0B0F, 0, 3, .rw, 32, false, 65536, .rng 2 4294967295⟩,
   ⟨0x0B10, 0, 3, .rw, 8, false, 0, .rng 0 1⟩,
   ⟨0x0B11, 0, 3, .rw, 32, false, 256, .rng 1 4294967294⟩,
   ⟨0x0B18, 0, 3, .ro, 64, false, 0, .any⟩,
   ⟨0x0B19, 0, 3, .ro, 64, false, 0, .any⟩,
   ⟨0x0B1A, 0, 3, .ro, 64, false, 0, .any⟩,
   ⟨0x0B1B, 0, 3, .ro, 64, false, 0, .any⟩,
   ⟨0x0B1C, 0, 3, .ro, 64, false, 0, .any⟩,
   ⟨0x0B1D, 0, 3, .ro, 64, false, 0, .any⟩,
   ⟨0x0B1E, 0, 3, .ro, 64, false, 0, .any⟩,
   ⟨0x0B1F, 0, 3, .ro, 64, false, 0, .any⟩,
   ⟨0x0B20, 0, 2, .rw, 8, false, 0, .rng 0 1⟩,
   ⟨0x0B21, 0, 2, .rw, 32, false, 138500, .any⟩,
   ⟨0x0B22, 0, 2, .rw, 64, false, 22518135578953600, .any⟩,
   ⟨0x0B23, 0, 2, .rw, 64, false, 6473945939379256, .any⟩,
   ⟨0x0B24, 0, 2, .rw, 64, false, 0, .mask 15⟩,
   ⟨0x0B25, 0, 1, .rw, 16, false, 8244, .mask 12599⟩,
   ⟨0x0B26, 0, 2, .rw, 32, false, 0, .any⟩,
   ⟨0x0B28, 0, 2, .w1c, 32, false, 0, .mask 3072⟩,
   ⟨0x0B29, 0, 2, .ro, 64, false, 0, .any⟩,
   ⟨0x0B2A, 0, 2, .ro, 64, false, 0, .any⟩,
   ⟨0x0B30, 0, 5, .rw, 8, false, 0, .rng 0 1⟩,
   ⟨0x0B31, 0, 5, .rw, 8, false, 0, .rng 0 4⟩,
   ⟨0x0B32, 0, 5, .rw, 64, false, 0, .rng 0 137438953471⟩,
   ⟨0x0B33, 0, 5, .rw, 32, false, 7680, .rng 256 65536⟩,
   ⟨0x0B34, 0, 5, .rw, 32, false, 70780800, .any⟩] ++
  [⟨0x0B35, 0, 5, .rw, 32, false, 0, .any⟩,
   ⟨0x0B36, 0, 5, .rw, 8, false, 0, .rng 0 3⟩,
   ⟨0x0B37, 0, 5, .rw, 8, false, 0, .mask 15⟩,
   ⟨0x0B38, 0, 5, .rw, 16, false, 1023, .rng 0 1023⟩]

/-- Class 0x0C. -/
def paramRows0C : List ParamRow :=
  [⟨0x0C01, 0, 255, .ro, 64, false, 0, .any⟩,
   ⟨0x0C02, 0, 255, .ro, 64, false, 0, .any⟩,
   ⟨0x0C03, 0, 255, .ro, 64, false, 0, .any⟩,
   ⟨0x0C04, 0, 255, .ro, 64, false, 0, .any⟩,
   ⟨0x0C05, 0, 255, .ro, 64, false, 0, .any⟩,
   ⟨0x0C10, 0, 255, .ro, 64, false, 0, .any⟩,
   ⟨0x0C11, 0, 255, .ro, 64, false, 0, .any⟩,
   ⟨0x0C12, 0, 255, .ro, 64, false, 0, .any⟩,
   ⟨0x0C13, 0, 255, .ro, 64, false, 0, .any⟩,
   ⟨0x0C18, 0, 15, .ro, 64, false, 0, .any⟩,
   ⟨0x0C19, 0, 15, .ro, 64, false, 0, .any⟩]

/-- Class 0x0D. -/
def paramRows0D : List ParamRow :=
  [⟨0x0D01, 0, 3, .w1c, 32, false, 0, .mask 192⟩,
   ⟨0x0D02, 0, 39, .rw, 32, false, 2000, .rng 100 1000000⟩,
   ⟨0x0D04, 0, 39, .ro, 64, false, 0, .any⟩,
   ⟨0x0D05, 0, 39, .ro, 64, false, 0, .any⟩,
   ⟨0x0D08, 0, 10, .ro, 64, false, 0, .any⟩,
   ⟨0x0D0A, 0, 0, .rw, 16, false, 21, .rng 1 200⟩,
   ⟨0x0D0B, 0, 0, .rw, 16, false, 24, .rng 1 168⟩,
   ⟨0x0D0C, 0, 0, .rw, 16, false, 10, .rng 1 200⟩,
   ⟨0x0D0D, 0, 0, .ro, 64, false, 0, .any⟩,
   ⟨0x0D0E, 0, 3, .ro, 64, false, 0, .any⟩,
   ⟨0x0D0F, 0, 3, .ro, 64, false, 0, .any⟩,
   ⟨0x0D10, 0, 3, .ro, 64, false, 0, .any⟩,
   ⟨0x0D11, 0, 0, .ro, 64, false, 0, .any⟩,
   ⟨0x0D12, 0, 0, .ro, 64, false, 0, .any⟩,
   ⟨0x0D13, 0, 0, .rw, 32, false, 100, .rng 10 100000⟩,
   ⟨0x0D14, 0, 3, .ro, 64, false, 0, .any⟩]

/-- Class 0x0E. -/
def paramRows0E : List ParamRow :=
  [⟨0x0E01, 0, 0, .rw, 8, false, 1, .rng 0 16⟩,
   ⟨0x0E02, 0, 0, .ro, 64, false, 0, .any⟩,
   ⟨0x0E03, 0, 0, .ro, 64, false, 0, .any⟩,
   ⟨0x0E05, 0, 31, .rw, 32, false, 100, .rng 1 10000⟩,
   ⟨0x0E06, 0, 31, .ro, 64, false, 0, .any⟩]

/-- Class 0x0F. -/
def paramRows0F : List ParamRow :=
  [⟨0x0F01, 0, 0, .rw, 8, false, 0, .rng 0 1⟩,
   ⟨0x0F02, 0, 0, .rw, 8, false, 1, .rng 1 16⟩,
   ⟨0x0F03, 0, 0, .w1c, 32, false, 0, .mask 24⟩,
   ⟨0x0F04, 0, 0, .ro, 64, false, 0, .any⟩,
   ⟨0x0F05, 0, 1, .ro, 64, false, 0, .any⟩,
   ⟨0x0F06, 0, 0, .rw, 16, false, 800, .rng 100 1000⟩,
   ⟨0x0F10, 0, 15, .rw, 8, false, 0, .rng 0 23⟩,
   ⟨0x0F11, 0, 15, .rw, 8, false, 0, .rng 0 7⟩,
   ⟨0x0F12, 0, 15, .rw, 32, false, 1, .rng 1 65536⟩,
   ⟨0x0F13, 0, 15, .rw, 32, false, 100, .rng 0 1000000⟩,
   ⟨0x0F14, 0, 15, .rw, 16, false, 0, .any⟩,
   ⟨0x0F15, 0, 15, .rw, 16, false, 20, .rng 1 1000⟩,
   ⟨0x0F16, 0, 15, .ro, 64, false, 0, .any⟩,
   ⟨0x0F17, 0, 15, .w1c, 64, false, 0, .mask 4⟩,
   ⟨0x0F20, 0, 15, .rw, 8, false, 0, .rng 0 1⟩,
   ⟨0x0F21, 0, 15, .rw, 16, true, 511, .rng (-512) 511⟩,
   ⟨0x0F22, 0, 15, .rw, 16, true, 18446744073709551104, .rng (-512) 511⟩,
   ⟨0x0F23, 0, 15, .rw, 8, false, 2, .rng 0 7⟩,
   ⟨0x0F24, 0, 15, .w1c, 32, false, 0, .mask 240⟩,
   ⟨0x0F25, 0, 15, .rw, 8, false, 0, .mask 15⟩,
   ⟨0x0F26, 0, 15, .rw, 8, false, 0, .mask 15⟩,
   ⟨0x0F27, 0, 15, .ro, 64, false, 0, .any⟩,
   ⟨0x0F30, 0, 7, .rw, 8, false, 0, .rng 0 4⟩,
   ⟨0x0F31, 0, 7, .rw, 16, false, 0, .any⟩,
   ⟨0x0F32, 0, 7, .rw, 8, false, 0, .rng 0 4⟩,
   ⟨0x0F33, 0, 7, .rw, 16, false, 0, .any⟩,
   ⟨0x0F34, 0, 7, .w1c, 32, false, 0, .mask 24⟩,
   ⟨0x0F35, 0, 7, .ro, 64, true, 0, .any⟩,
   ⟨0x0F36, 0, 7, .rw, 8, false, 0, .rng 0 1⟩]

/-- Class 0x10. -/
def paramRows10 : List ParamRow :=
  [⟨0x1001, 0, 31, .rw, 8, false, 0, .rng 0 1⟩,
   ⟨0x1002, 0, 31, .rw, 8, false, 0, .rng 0 2⟩,
   ⟨0x1003, 0, 15, .rw, 8, false, 0, .rng 0 1⟩,
   ⟨0x1004, 0, 15, .rw, 8, false, 0, .any⟩,
   ⟨0x1005, 0, 31, .rw, 8, false, 0, .rng 0 1⟩,
   ⟨0x1006, 0, 15, .rw, 8, false, 0, .rng 0 1⟩,
   ⟨0x1008, 0, 31, .w1c, 32, false, 0, .mask 56⟩,
   ⟨0x1009, 0, 31, .ro, 64, false, 0, .any⟩,
   ⟨0x100A, 0, 31, .ro, 64, false, 0, .any⟩,
   ⟨0x100B, 0, 31, .ro, 64, false, 0, .any⟩,
   ⟨0x1010, 0, 3, .rw, 64, false, 1280, .mask 131071⟩,
   ⟨0x1011, 0, 3, .rw, 64, false, 1280, .mask 131071⟩,
   ⟨0x1012, 0, 3, .rw, 32, false, 1024, .rng 2 16777216⟩,
   ⟨0x1013, 0, 3, .rw, 8, false, 0, .rng 0 1⟩,
   ⟨0x1014, 0, 3, .rw, 8, false, 0, .rng 0 1⟩,
   ⟨0x1018, 0, 3, .ro, 64, true, 0, .any⟩,
   ⟨0x1019, 0, 3, .ro, 64, false, 0, .any⟩,
   ⟨0x101A, 0, 3, .ro, 64, false, 0, .any⟩,
   ⟨0x101B, 0, 3, .ro, 64, false, 0, .any⟩,
   ⟨0x101C, 0, 3, .ro, 64, false, 0, .any⟩,
   ⟨0x101D, 0, 3, .ro, 64, false, 0, .any⟩]

/-- Class 0x11. -/
def paramRows11 : List ParamRow :=
  [⟨0x1101, 0, 3, .ro, 64, false, 0, .any⟩,
   ⟨0x1102, 0, 3, .ro, 64, false, 0, .any⟩,
   ⟨0x1103, 0, 3, .ro, 64, true, 0, .any⟩,
   ⟨0x1104, 0, 63, .ro, 64, false, 0, .any⟩,
   ⟨0x1105, 0, 3, .ro, 64, false, 0, .any⟩,
   ⟨0x1106, 0, 3, .ro, 64, false, 0, .any⟩,
   ⟨0x1107, 0, 3, .ro, 64, false, 0, .any⟩,
   ⟨0x1110, 0, 0, .rw, 16, false, 24, .rng 0 168⟩,
   ⟨0x1111, 0, 0, .rw, 16, false, 1500, .rng 1500 5000⟩,
   ⟨0x1112, 0, 0, .rw, 16, false, 1000, .rng 900 1000⟩,
   ⟨0x1113, 0, 0, .rw, 16, false, 115, .rng 85 125⟩,
   ⟨0x1114, 0, 3, .rw, 8, false, 64, .rng 0 127⟩,
   ⟨0x1118, 0, 0, .ro, 64, false, 0, .any⟩,
   ⟨0x1119, 0, 0, .ro, 64, false, 0, .any⟩,
   ⟨0x111A, 0, 0, .ro, 64, false, 0, .any⟩]

/-- Class 0x12. -/
def paramRows12 : List ParamRow :=
  [⟨0x1201, 0, 0, .rw, 8, false, 0, .rng 0 2⟩,
   ⟨0x1202, 0, 0, .ro, 64, false, 0, .any⟩,
   ⟨0x1203, 0, 0, .ro, 64, false, 0, .any⟩,
   ⟨0x1204, 0, 0, .rw, 64, false, 16777216, .rng 1048576 1099511627776⟩,
   ⟨0x1205, 0, 0, .rw, 8, false, 1, .rng 0 1⟩,
   ⟨0x1206, 0, 0, .rw, 8, false, 3, .rng 0 3⟩,
   ⟨0x1207, 0, 0, .rw, 8, false, 15, .rng 0 15⟩,
   ⟨0x1208, 0, 0, .ro, 64, true, 0, .any⟩,
   ⟨0x1209, 0, 0, .ro, 64, false, 0, .any⟩,
   ⟨0x120A, 0, 0, .rw, 8, false, 0, .rng 0 1⟩,
   ⟨0x120B, 0, 0, .ro, 64, false, 0, .any⟩,
   ⟨0x120C, 0, 0, .ro, 64, false, 0, .any⟩,
   ⟨0x120D, 0, 0, .ro, 64, false, 0, .any⟩,
   ⟨0x120E, 0, 0, .ro, 64, false, 0, .any⟩]

/-- Class 0x13. -/
def paramRows13 : List ParamRow :=
  [⟨0x1301, 0, 0, .rw, 8, false, 0, .rng 0 1⟩]

/-- Class 0x14. -/
def paramRows14 : List ParamRow :=
  [⟨0x1401, 0, 0, .ro, 64, false, 0, .any⟩,
   ⟨0x1402, 0, 0, .ro, 64, false, 0, .any⟩,
   ⟨0x1403, 0, 0, .ro, 64, false, 0, .any⟩,
   ⟨0x1404, 0, 1, .ro, 64, false, 0, .any⟩,
   ⟨0x1410, 0, 3, .ro, 64, false, 0, .any⟩]

/-- Every parameter. -/
def paramRows : List ParamRow :=
  paramRows00 ++
  paramRows02 ++
  paramRows04 ++
  paramRows05 ++
  paramRows06 ++
  paramRows07 ++
  paramRows08 ++
  paramRows09 ++
  paramRows0A ++
  paramRows0B ++
  paramRows0C ++
  paramRows0D ++
  paramRows0E ++
  paramRows0F ++
  paramRows10 ++
  paramRows11 ++
  paramRows12 ++
  paramRows13 ++
  paramRows14

/-- The rows of one class (R61). -/
def paramClass : Nat → List ParamRow
  | 0x00 => paramRows00
  | 0x02 => paramRows02
  | 0x04 => paramRows04
  | 0x05 => paramRows05
  | 0x06 => paramRows06
  | 0x07 => paramRows07
  | 0x08 => paramRows08
  | 0x09 => paramRows09
  | 0x0A => paramRows0A
  | 0x0B => paramRows0B
  | 0x0C => paramRows0C
  | 0x0D => paramRows0D
  | 0x0E => paramRows0E
  | 0x0F => paramRows0F
  | 0x10 => paramRows10
  | 0x11 => paramRows11
  | 0x12 => paramRows12
  | 0x13 => paramRows13
  | 0x14 => paramRows14
  | _ => []

/-- The row of a parameter ID, if the device defines it. -/
def paramRow (id : Nat) : Option ParamRow := (paramClass (id / 256)).find? (fun r => r.id = id)

/-- The reset value of a parameter instance: its row's, but for those that depend on the instance or the variant. -/
def paramReset (v : Variant) (id inst : Nat) : Nat :=
  match id with
  | 0x0701 => if inst % 4 = 0 then 1 else 0                       -- R199
  | 0x0702 => 0x0100 + inst / 4
  | 0x0703 => match v with
    | .f => 0x000F <<< (4 * (inst / 4))
    | _ => 0x000F <<< (4 * (inst / 4 % 2))
  | 0x0902 => 0x0100 + inst % 4
  | 0x0911 => if v = .f then 2 ^ 31 else 2 ^ 30                   -- R263
  | 0x0912 => if v = .f then 2 ^ 35 else 2 ^ 34
  | 0x0B21 => if inst = 2 then 154000 else 138500
  | 0x0B23 => if inst = 2 then 0x001A0006000304B0 else 0x0017000500030438
  | 0x0D02 =>                                                     -- Table 13-3
    if inst < 4 then 2000 else if inst < 12 then 20000 else if inst < 28 then 1000
    else if inst = 28 then 5000 else if inst < 33 then 4000 else if inst < 36 then 3000
    else if inst = 36 then 2000 else if inst = 37 then 5000 else if inst = 38 then 1000000 else 1000
  | 0x0F10 => inst
  | 0x1004 => inst
  | 0x1114 => 0x40 + inst
  | _ => (paramRow id).elim 0 (·.reset)

/-- The key of a parameter instance in `State.params`. -/
def parKey (id inst : Nat) : Nat := id * 65536 + inst

/-- The value of a written parameter instance, as the 64-bit field of Table 2-9 holds it. -/
def par (s : State) (id inst : Nat) : Nat := (tget? s.params (parKey id inst)).getD (paramReset s.variant id inst)

/-- The same, read as a signed number. -/
def parI (s : State) (id inst : Nat) : Int := sgn 64 (par s id inst)

/-- Writes a parameter instance. -/
def setPar (s : State) (id inst v : Nat) : State := { s with params := tput s.params (parKey id inst) v }

/-- R68: a value fills its field as a number of the parameter's width, zero- or sign-extended. -/
def parWidthOk (r : ParamRow) (v : Nat) : Bool :=
  if r.signed then decide (uns 64 (sgn r.width v) = v) else decide (v < 2 ^ r.width)

/-- The range or reserved-bit rule of the parameter's table. -/
def parRangeOk (r : ParamRow) (v : Nat) : Bool :=
  match r.range with
  | .any => true
  | .rng lo hi =>
    let x : Int := if r.signed then sgn 64 v else v
    decide (lo ≤ x) && decide (x ≤ hi)
  | .mask m => decide (v &&& m = v)

end Sys2Proof.Machine
end

