-- ==== Sys2Proof/Machine/Ops.lean ====
section
/-! DEFINITION. The named operations that the families share: fitted units, ordinals and time, events, replies,
interrupts, the error log, free values. -/
namespace Sys2Proof.Machine

/-- Changes element `i` of a list; a list that has none is unchanged. -/
def lmod {α : Type} : List α → Nat → (α → α) → List α
  | [], _, _ => []
  | x :: xs, 0, f => f x :: xs
  | x :: xs, i + 1, f => x :: lmod xs i f

/-- Element `i` of a list, or `d`. -/
def nth {α : Type} (l : List α) (i : Nat) (d : α) : α := (l[i]?).getD d

/-! ### Fitted units (Tables 0-1, 0-2, 2-12) -/

/-- The width of a unit kind on the OL9640-F (Table 2-12). -/
def kindWidth : Nat → Nat
  | 0x01 => 4 | 0x02 => 32 | 0x03 => 16 | 0x04 => 1 | 0x05 => 32 | 0x06 => 256 | 0x07 => 4 | 0x08 => 16
  | 0x09 => 8 | 0x0A => 16 | 0x0B => 4 | 0x0C => 8 | 0x0D => 3 | 0x0E => 4 | 0x0F => 2 | 0x10 => 16
  | 0x11 => 8 | 0x12 => 4 | 0x13 => 64 | 0x14 => 4 | 0x15 => 40 | 0x16 => 16 | 0x17 => 1 | _ => 0

/-- Whether a variant fits an instance of a unit kind (Tables 0-1 and 0-2). -/
def fitted (v : Variant) (kind i : Nat) : Bool :=
  decide (i < kindWidth kind) &&
  match v, kind with
  | .f, _ => true
  | _, 0x01 => decide (i < 2)
  | _, 0x03 => decide (i < 8)
  | .s, 0x06 => decide (i < 128)
  | .s, 0x0A => decide (i < 8)
  | _, 0x0B => decide (i < 2)
  | .s, 0x0C => decide (i < 4)
  | .s, 0x07 => decide (i < 2)
  | .h, 0x07 => false
  | .h, 0x0D => false
  | .s, 0x15 => !(decide (8 ≤ i) && decide (i < 12)) && !(decide (20 ≤ i) && decide (i < 28)) &&
      !(decide (31 ≤ i) && decide (i < 33))
  | .h, 0x15 => !(decide (29 ≤ i) && decide (i < 36))
  | _, _ => true

/-- The instances of a kind that the variant fits. -/
def fittedList (v : Variant) (kind : Nat) : List Nat := (List.range (kindWidth kind)).filter (fitted v kind)

/-- HBM capacity in bytes (Table 0-1). -/
def hbmSize (v : Variant) : Nat := if v = .f then 96 * 2 ^ 30 else 48 * 2 ^ 30

/-- Device IDs of Table 14-1. -/
def deviceId : Variant → Nat
  | .f => 0x9640 | .s => 0x9641 | .h => 0x9620

/-- Variant codes of Table 2-11. -/
def variantCode : Variant → Nat
  | .f => 1 | .s => 2 | .h => 3

/-- Mode codes of Table 3-1. -/
def modeCode : Mode → Nat
  | .boot => 0 | .idle => 1 | .analyse => 2 | .record => 3 | .watch => 4 | .dormant => 5 | .service => 6 | .safe => 7

/-- The mode of a code. -/
def modeOf : Nat → Option Mode
  | 0 => some .boot | 1 => some .idle | 2 => some .analyse | 3 => some .record
  | 4 => some .watch | 5 => some .dormant | 6 => some .service | 7 => some .safe | _ => none

/-- The region that hosts an instance of a unit kind (Table 17-1). -/
def regionOf (kind i : Nat) : Nat :=
  match kind with
  | 0x01 => i | 0x02 => i / 8 | 0x03 => i / 4 | 0x06 => i / 64 | 0x07 => i | 0x08 => i / 4 | 0x0A => i / 4
  | 0x13 => i / 16 | 0x0B => 2 | _ => 0

/-! ### Free values -/

/-- The next free value, and the state with the count advanced. -/
def takeFree (s : State) : Nat × State := (Config.free s.fresh, { s with fresh := s.fresh + 1 })

/-! ### Channels, ordinals and time -/

/-- `conv.paired` in force. -/
def paired (s : State) : Bool := decide (par s 0x0404 0 = 1)

def chan (s : State) (c : Nat) : Channel := nth s.chans c {}

def setChan (s : State) (c : Nat) (f : Channel → Channel) : State := { s with chans := lmod s.chans c f }

/-- Whether the ordinal domain of channel `c` runs; while paired, CH1 has none of its own (R30). -/
def running (s : State) (c : Nat) : Bool := (chan s c).running && !(paired s && decide (c = 1))

/-- The ordinal of the next sample in the domain of channel `c` (R28, R30). -/
def ordNext (s : State) (c : Nat) : Nat :=
  if paired s && decide (c = 0) then (chan s 0).count + (chan s 1).count else (chan s c).count

/-- The ordinal rate of the domain of channel `c`, in samples per second. -/
def ordRate (s : State) (c : Nat) : Nat :=
  if paired s && decide (c = 0) then 2 * par s 0x0401 0 else par s 0x0401 c

/-- Some channel runs. -/
def anyRunning (s : State) : Bool := s.chans.any (·.running)

/-- The scheduling lead of a channel: ⌈50 µs × r⌉ ordinals (R33). -/
def schedLead (s : State) (c : Nat) : Nat := cdiv (ordRate s c * 50) 1000000

/-- `sys.cue_channel` (R32). -/
def cueChan (s : State) : Nat := par s 0x0010 0

/-- The first ordinal that the stage manager can schedule now: the next sample's (R38). -/
def appliedOrd (s : State) (c : Nat) : Nat := ordNext s c

/-- A number of nanoseconds in ordinals of channel `c`, rounded half up (R247). -/
def nsToOrd (s : State) (c ns : Nat) : Nat := (2 * ns * ordRate s c + 10 ^ 9) / (2 * 10 ^ 9)

/-- The same, rounded up, of a number of picoseconds. -/
def psToOrdUp (s : State) (c ps : Nat) : Nat := cdiv (ps * ordRate s c) (10 ^ 12)

/-- TIME80 of an ordinal of the cue channel, in 2^-32 s, by the latest anchor and the measured rate (R39). -/
def timeOfOrd (s : State) (n frac : Nat) : Option Nat :=
  match s.tiu.anchor with
  | none => none
  | some a =>
    if s.tiu.rateMhz = 0 then none else
    let d : Int := ((n * 2 ^ 32 + frac : Nat) : Int) - (((a.ord * 2 ^ 32 : Nat) : Int) + a.offset)
    some ((a.time : Int) + d * 1000 / (s.tiu.rateMhz : Int)).toNat

/-- Holdover (R156): the reference in use is XO, a PLL coasts, or PPS_IN is not qualified. -/
def holdoverOf (c : ClockUnit) : Bool := decide (c.source = 2) || c.plls.any (·.coast) || !c.ppsQual

/-- Holdover now. -/
def holdover (s : State) : Bool := holdoverOf s.clk

/-- PPS_IN has had a good edge since boot (R467): stamps and events carry TIME80. -/
def timeValid (s : State) : Bool := s.tiu.ppsT.isSome

/-! ### Sticky bits and interrupts (R419 to R422) -/

/-- Sends something over the host link, or holds it while Bus Master Enable is 0 (R418). -/
def emitHost (s : State) (o : Output) : State :=
  if s.host.bme then { s with out := s.out ++ [o] }
  else { s with host := { s.host with parked := s.host.parked ++ [o] } }

/-- Something leaves the device by another way than the host link. -/
def emit (s : State) (o : Output) : State := { s with out := s.out ++ [o] }

/-- Signals an MSI-X vector: a message when it is unmasked, its PBA bit otherwise; a message held for Bus Master Enable serves
for all occurrences up to the moment it is sent (R418, R422). -/
def fireVector (s : State) (v : Nat) : State :=
  if s.host.funcMask || s.host.masked.contains v then
    if s.host.pba.contains v then s
    else { s with host := { s.host with pba := s.host.pba ++ [v] } }
  else if s.host.bme then emit s (.msix v)
  else { s with host := { s.host with parked := s.host.parked.filter (fun o => !decide (o = .msix v)) ++ [.msix v] } }

/-- Signals vector 0 or 1, which IRQ_HOLDOFF spaces (Table 14-5). -/
def fireHeld (s : State) (v : Nat) : State :=
  if nth s.host.holding v false then
    { s with host := { s.host with due := lmod s.host.due v (fun _ => true) } }
  else
    let s := fireVector s v
    if s.host.holdoff = 0 then s
    else { s with host := { s.host with holding := lmod s.host.holding v (fun _ => true) } }

/-- Sets STICKY bit `n`, and signals vector 3 where STICKY_IRQ enables it (R420). -/
def setSticky (s : State) (n : Nat) : State :=
  let was := bit s.host.sticky n
  let s := { s with host := { s.host with sticky := s.host.sticky ||| (1 <<< n) } }
  if !was && bit s.host.stickyIrq n then fireVector s 3 else s

/-- Sets a bit of RING_STATUS by `f`, and signals vector 2 when `was` says that it becomes set (R422). -/
def setRingStatus (s : State) (was : Bool) (f : Rings → Rings) : State :=
  let s := { s with ring := f s.ring }
  if was then s else fireVector s 2

/-! ### The mirror line (R55) -/

/-- The 64 bytes of the mirror line. -/
def mirrorBytes (r : Rings) : List Byte :=
  leBytes 8 r.cmdHead ++ leBytes 8 r.rplTail ++ leBytes 8 r.evtTail ++ leBytes 8 r.evtLost ++ zeros 32

/-- Writes the mirror line when TAIL_MIRROR enables it. -/
def writeMirror (s : State) : State :=
  if s.ring.tailMirror = 0 then s else emitHost s (.mirror s.ring.tailMirror (mirrorBytes s.ring))

/-! ### Events (R54, R73, R74, R86) -/

/-- The 32 bytes of an event entry (Table 2-13). -/
def eventBytes (e : EventEntry) : List Byte :=
  let ev := e.ev
  let flags := b2n ev.ord.isSome + 2 * b2n ev.time.isSome + 4 * b2n (ev.holdover && ev.time.isSome) +
    8 * b2n ev.paired
  let t := ev.time.getD 0
  leBytes 2 ev.code ++ leBytes 1 flags ++
  leBytes 1 (match ev.ord with | some (c, _) => c | none => 0xFF) ++
  leBytes 2 ev.inst ++ leBytes 2 e.seq ++
  leBytes 8 (match ev.ord with | some (_, n) => n | none => ev.num) ++
  leBytes 4 (t % 2 ^ 32) ++ leBytes 6 (t / 2 ^ 32) ++ leBytes 2 0 ++ leBytes 4 ev.detail

/-- Entries of the event ring (R52). -/
def evtCount (r : Rings) : Nat := 2 ^ r.evtSize

/-- The event ring can take an entry. -/
def evtRoom (r : Rings) : Bool :=
  r.evtEn && decide ((r.evtTail + evtCount r - r.evtHead) % evtCount r < evtCount r - 1)

/-- Writes an entry to the event ring and signals it. -/
def writeRingEvent (s : State) (e : Event) : State :=
  let entry : EventEntry := { seq := (s.ring.seq + 1) % 65536, ev := e }
  let at_ := s.ring.evtBase + 32 * s.ring.evtTail
  let s := emitHost s (.event at_ entry)
  let s := { s with ring := { s.ring with seq := (s.ring.seq + 1) % 65536,
                                          evtTail := (s.ring.evtTail + 1) % evtCount s.ring } }
  fireHeld (writeMirror s) 1

/-- The `EVENTS_LOST` event of a destination (Table 2-14). DESIGN CHOICE, see assumption 16: TIME_VALID is clear in it and its
time reads 0, since the manual does not say whether it carries the TIME80 of R73. -/
def eventsLostEvent (inst lost : Nat) : Event := { code := 0x0200, inst := inst, detail := lost }

/-- Posts the `EVENTS_LOST` that a loss of the ring leaves due, once there is room (R54). DESIGN CHOICE, see assumption 65: it
goes to the ring alone, since it tells of the ring's own loss; the manual does not say whether a mailbox that selects class
0x02 gets a copy. -/
def reportRingLoss (s : State) : State :=
  if s.ring.lossPending && evtRoom s.ring then
    writeRingEvent { s with ring := { s.ring with lossPending := false } } (eventsLostEvent 0 s.ring.evtLost)
  else s

/-- Posts an event to the event ring, or counts it as lost (R54). -/
def postRing (s : State) (e : Event) : State :=
  if !bit (par s 0x0015 0) (e.code / 256) then s else
  let s := reportRingLoss s
  if evtRoom s.ring then writeRingEvent s e
  else
    let s := setRingStatus s s.ring.evtOverflow (fun r =>
      { r with evtLost := satU 32 (r.evtLost + 1), evtOverflow := true, lossPending := true })
    setSticky s 0

def mbx (s : State) : Mbx → Mailbox
  | .spi => s.spi
  | .smbus => s.smbus

def setMbx (s : State) (m : Mbx) (f : Mailbox → Mailbox) : State :=
  match m with
  | .spi => { s with spi := f s.spi }
  | .smbus => { s with smbus := f s.smbus }

/-- The instance of a mailbox in `sys.oob_events`. -/
def mbxInst : Mbx → Nat
  | .spi => 0 | .smbus => 1

/-- Puts an entry in a mailbox FIFO. -/
def pushFifo (b : Mailbox) (e : Event) : Mailbox :=
  let q := (b.seq + 1) % 65536
  { b with seq := q, fifo := b.fifo ++ [{ seq := q, ev := e }] }

/-- Places the `EVENTS_LOST` that a loss of a mailbox leaves due, once there is room (R86). -/
def reportMbxLoss (m : Mbx) (b : Mailbox) : Mailbox :=
  if b.lossPending && decide (b.fifo.length < 256) then
    pushFifo { b with lossPending := false } (eventsLostEvent (1 + mbxInst m) b.lost)
  else b

/-- Copies an event to a mailbox FIFO of 256 entries, or counts it as lost (R86). -/
def postMbx (s : State) (m : Mbx) (e : Event) : State :=
  if !bit (par s 0x0014 (mbxInst m)) (e.code / 256) then s else
  setMbx s m (fun b =>
    let b := reportMbxLoss m b
    if b.fifo.length < 256 then pushFifo b e
    else { b with evtLostFlag := true, lost := satU 32 (b.lost + 1), lossPending := true })

/-- Posts an event to every destination. No event is posted during BOOT (R97). -/
def post (s : State) (e : Event) : State :=
  if s.md.mode = .boot then s else postMbx (postMbx (postRing s e) .spi e) .smbus e

/-- The STICKY bit that an event's condition sets (Table 14-3). -/
def eventSticky : Nat → Option Nat
  | 0x0210 => some 3
  | 0x0211 => some 7
  | 0x0A01 => some 4
  | 0x0A02 => some 4
  | 0x0A03 => some 4
  | 0x0D02 => some 5
  | 0x1101 => some 8
  | _ => none

/-- Sets the STICKY bit of an event's condition (R420). -/
def noteSticky (s : State) (code : Nat) : State :=
  match eventSticky code with
  | some n => setSticky s n
  | none => s

/-- An event with its stamps: the ordinal given, and TIME80 by R39 where it is valid; the time of an occurrence that
has no ordinal, or whose mapping has no rate yet, is a free value. -/
def mkEvent (s : State) (code inst detail : Nat) (ord : Option (Nat × Nat)) (num : Nat := 0) : Event × State :=
  let s := noteSticky s code
  if timeValid s then
    let mapped := match ord with
      | some (_, n) => timeOfOrd s n 0
      | none => none
    match mapped with
    | some t => ({ code, inst, detail := detail % 2 ^ 32, ord, num, time := some t, holdover := holdover s,
                   paired := paired s && ord.isSome && decide ((ord.getD (1, 0)).1 = 0) }, s)
    | none =>
      let (t, s) := takeFree s
      ({ code, inst, detail := detail % 2 ^ 32, ord, num, time := some (t % 2 ^ 80), holdover := holdover s,
         paired := paired s && ord.isSome && decide ((ord.getD (1, 0)).1 = 0) }, s)
  else
    ({ code, inst, detail := detail % 2 ^ 32, ord, num,
       paired := paired s && ord.isSome && decide ((ord.getD (1, 0)).1 = 0) }, s)

/-- Posts an edge event (R74). -/
def raise (s : State) (code inst detail : Nat) (ord : Option (Nat × Nat) := none) (num : Nat := 0) : State :=
  let (e, s) := mkEvent s code inst detail ord num
  post s e

/-- Posts a latched event unless its latch is set, and sets the latch (R74). -/
def raiseLatched (s : State) (code inst detail : Nat) (ord : Option (Nat × Nat) := none) : State :=
  if s.ev.latches.contains (code, inst) then s
  else raise { s with ev := { s.ev with latches := (code, inst) :: s.ev.latches } } code inst detail ord

/-- An occurrence of a rate-limited event (R74): posted at once when no window of its code and source is open, held
otherwise. `acc` combines what held occurrences add to the detail. -/
def postWindowed (s : State) (e : Event) (acc : Nat → Nat) : State :=
  let key := (e.code, e.inst)
  if s.ev.windows.any (fun w => w.1 = key) then
    { s with ev := { s.ev with windows := s.ev.windows.map (fun w =>
        if w.1 = key then (key, { held := w.2.held + 1, first := some (w.2.first.getD e), acc := acc w.2.acc })
        else w) } }
  else
    let s := post s e
    { s with ev := { s.ev with windows := s.ev.windows ++ [(key, { acc := 0 })] } }

/-- The same with the stamps of `mkEvent`. -/
def raiseWindowed (s : State) (code inst detail : Nat) (ord : Option (Nat × Nat)) (acc : Nat → Nat) (num : Nat := 0) : State :=
  let (e, s) := mkEvent s code inst detail ord num
  postWindowed s e acc

/-- The ordinal of the cue channel now, where it runs: the stamp of an event on a unit of that domain. -/
def cueNow (s : State) : Option (Nat × Nat) :=
  if running s (cueChan s) then some (cueChan s, ordNext s (cueChan s)) else none

/-! ### The error log (R492 to R495) -/

/-- Makes an error-log entry (R495): sixty general slots, four for fatal entries; an entry without room is counted. -/
def logEntry (s : State) (code kind inst detail : Nat) (fatal : Bool) (st : Nat) (rep : Bool) : State :=
  let h := s.health
  let general := (h.log.filter (fun e => !e.fatal)).length
  let fatals := (h.log.filter (fun e => e.fatal)).length
  if (fatal && decide (4 ≤ fatals)) || (!fatal && decide (60 ≤ general)) then
    { s with health := { h with overflow := satU 32 (h.overflow + 1) } }
  else
    let ord := if running s (cueChan s) then some (ordNext s (cueChan s)) else none
    let (t, s) := if timeValid s then
        match ord.bind (fun n => timeOfOrd s n 0) with
        | some t => (some t, s)
        | none => let (f, s) := takeFree s; (some (f % 2 ^ 80), s)
      else (none, s)
    let h := s.health
    let s := { s with health := { h with
      seq := h.seq + 1,
      log := h.log ++ [{ seq := h.seq + 1, code, fatal, st, kind, rep, inst, ord, time := t,
                         detail := detail % 2 ^ 64 }],
      today := { h.today with errors := h.today.errors + 1 } } }
    let s := if fatal then setSticky s 6 else s
    raise s 0x0214 inst (code + st * 65536 + kind * 2 ^ 24)

/-- An entry whose Recovery column reads "none": RESOLVED once made (R493). -/
def logResolved (s : State) (code kind inst detail : Nat) : State := logEntry s code kind inst detail false 2 false

/-- The 48 bytes of an entry (Table 17-6). -/
def errBytes (e : ErrEntry) : List Byte :=
  let t := e.time.getD 0
  let b := leBytes 4 e.seq ++ leBytes 2 e.code ++ leBytes 1 (if e.fatal then 2 else 1) ++ leBytes 1 e.st ++
    leBytes 1 e.kind ++ leBytes 1 (b2n e.ord.isSome + 2 * b2n e.time.isSome + 4 * b2n e.rep) ++ leBytes 2 e.inst ++
    leBytes 8 (e.ord.getD 0) ++ leBytes 4 (t % 2 ^ 32) ++ leBytes 6 (t / 2 ^ 32) ++ leBytes 2 0 ++
    leBytes 8 e.detail ++ leBytes 4 0
  b ++ leBytes 4 (crc32c b)

/-- A unit that R494 has taken offline. -/
def isOffline (s : State) (kind inst : Nat) : Bool := s.health.offline.contains (kind, inst)

/-- Outputs of a unit whose memory error is not yet recovered carry GAP (Table 17-7, 0x1182). -/
def memErr (s : State) (kind inst : Nat) : Bool :=
  s.health.queue.any (fun x => decide (x.code = 0x1182) && decide (x.kind = kind) && decide (x.inst = inst))

/-- A unit that stalls takes nothing until it is recovered, and its inputs back up (Table 17-7, 0x1181). -/
def stalled (s : State) (kind inst : Nat) : Bool :=
  s.health.queue.any (fun x => decide (x.code = 0x1181) && decide (x.kind = kind) && decide (x.inst = inst))

/-! ### Long operations (R77 to R82) -/

/-- An operation that has not reached a terminal state. -/
def opLive (o : LongOp) : Bool :=
  match o.state with
  | .done | .failed | .cancelled => false
  | _ => true

/-- The codes of Table 2-15. -/
def opStateCode : OpState → Nat
  | .running => 0x00 | .suspending => 0x01 | .suspended => 0x02 | .cancelling => 0x03
  | .done => 0x10 | .failed => 0x11 | .cancelled => 0x12

/-- The live operations. -/
def liveOps (s : State) : List LongOp := s.ops.filter opLive

/-- The live operation of an opcode, if any. -/
def liveOp (s : State) (opcode : Nat) : Option LongOp := s.ops.find? (fun o => opLive o && decide (o.opcode = opcode))

/-- A `REPLAY` feeds the fabric in place of the converters (R296). -/
def replaying (s : State) : Bool := (liveOp s 0x0A42).isSome

/-- Changes the operation with a handle. -/
def setOp (s : State) (h : Nat) (f : LongOp → LongOp) : State :=
  { s with ops := s.ops.map (fun o => if o.handle = h then f o else o) }

/-- Keeps every live operation and the 32 most recent terminal ones (R80). -/
def pruneOps (l : List LongOp) : List LongOp :=
  let terminal := (l.filter (fun o => !opLive o)).map (·.handle)
  let old := terminal.take (terminal.length - 32)
  l.filter (fun o => !old.contains o.handle)

/-- Moves an operation to a state and posts `OP_STATE` where R78 asks for it. The terminal ones stay in the order in
which they ended. -/
def enterOpState (s : State) (h : Nat) (st : OpState) : State :=
  match s.ops.find? (fun o => decide (o.handle = h)) with
  | none => s
  | some o =>
    let o' := { o with state := st }
    let s := if opLive o' then setOp s h (fun _ => o')
      else { s with ops := pruneOps (s.ops.filter (fun x => !decide (x.handle = h)) ++ [o']) }
    match st with
    | .suspending | .cancelling => s
    | _ => raise s 0x0100 o.opcode h

/-- Starts a long operation (R77). -/
def startOp (s : State) (opcode inst tag total : Nat) (work : OpWork) : Nat × State :=
  let h := s.nextHandle
  (h, { s with nextHandle := h + 1,
               ops := s.ops ++ [{ handle := h, opcode, inst, tag, total, work }] })

/-! ### Scan (R551) -/

/-- Scan is enabled: in SERVICE while `test.scan_enable` is 1, and in SAFE with cause 6. -/
def scanEnabled (s : State) : Bool :=
  (s.md.mode = .service && decide (par s 0x1301 0 = 1)) || (s.md.mode = .safe && decide (s.md.safeCause = 6))

/-- A drive instruction is in force and enabled. -/
def tapDrives (s : State) : Bool := scanEnabled s && (s.tap.driving || s.tap.highz)

/-- An output edge at cue ordinal n is held (R503): the outputs are held, and no takeover ordinal at or below n has ended
the hold (R517). A `REPLAY` drives no output (R296). -/
def edgeHeld (s : State) (n : Nat) : Bool :=
  (s.pair.outHeld && !(decide (s.pair.role ≠ 2) && decide (s.pair.takeover ≤ n))) || replaying s

end Sys2Proof.Machine
end

