-- ==== Sys2Proof/Machine/Packet.lean ====
section
/-! DEFINITION. Reading a packet, the order of checks (Table 2-7), and posting its reply (R53 to R66). -/
namespace Sys2Proof.Machine

/-! ### Status codes (Table 2-8) -/

def stOK : Nat := 0x0000
def stACCEPTED : Nat := 0x0001
def stBAD_OPCODE : Nat := 0x0010
def stBAD_PARAM : Nat := 0x0011
def stBAD_CRC : Nat := 0x0012
def stBAD_STATE : Nat := 0x0013
def stUNIT_ABSENT : Nat := 0x0014
def stBUSY : Nat := 0x0015
def stORDINAL_PASSED : Nat := 0x0016
def stMISALIGNED : Nat := 0x0017
def stNO_SPACE : Nat := 0x0018
def stSUSPENDED : Nat := 0x0020
def stCANCELLED : Nat := 0x0021
def stHW_FAULT : Nat := 0x0030
def stDENIED : Nat := 0x0031

/-- A failing status that comes from outside the stage manager: one of Table 2-8, which has all there are (R66); any other
is a unit's failure. -/
def failStatus (st : Nat) : Nat :=
  if ([0x10, 0x11, 0x12, 0x13, 0x14, 0x15, 0x16, 0x17, 0x18, 0x20, 0x21, 0x30, 0x31] : List Nat).contains st then st else stHW_FAULT

/-! ### Framing and check (R56, R57) -/

/-- AT_ORDINAL of the flags (Table 2-4). -/
def pktAt (p : Packet) : Bool := p.flags.getLsbD 0

/-- NO_REPLY of the flags. -/
def pktNoReply (p : Packet) : Bool := p.flags.getLsbD 1

/-- Bytes 0 to 11 of the header, for a packet of an opcode. -/
def hdr12 (opcode : Nat) (p : Packet) : List Byte :=
  leBytes 2 opcode ++ leBytes 1 p.flags.toNat ++ leBytes 1 p.slots.toNat ++ leBytes 2 p.tag.toNat ++
  leBytes 2 p.inst.toNat ++ leBytes 4 p.len.toNat

/-- The packet as its sender wrote it: the header and the payload. -/
def packetBytes (opcode : Nat) (p : Packet) : List Byte := hdr12 opcode p ++ leBytes 4 p.check.toNat ++ p.payload

/-- R57: the packet can be checked. -/
def checkable (p : Packet) : Bool :=
  decide (1 ≤ p.slots.toNat) && decide (p.slots.toNat ≤ 64) && decide (p.len.toNat ≤ 4080) &&
  decide (p.len.toNat + 16 ≤ 64 * p.slots.toNat)

/-- The payload that the length field covers. -/
def payloadOf (p : Packet) : List Byte := padTo p.len.toNat p.payload

/-- R57: the CRC-32C over bytes 0 to 11 and the payload. -/
def crcOk (opcode : Nat) (p : Packet) : Bool := decide (crc32c (hdr12 opcode p ++ payloadOf p) = p.check.toNat)

/-- Slots of a packet or reply of a payload length. -/
def slotsOf (len : Nat) : Nat := cdiv (len + 16) 64

/-- Steps 1 and 2 of Table 2-7: the status of the first that fails. -/
def frameCheck (opcode : Nat) (p : Packet) : Option Nat :=
  if !checkable p then some stBAD_PARAM
  else if !crcOk opcode p then some stBAD_CRC
  else if p.slots.toNat ≠ slotsOf p.len.toNat then some stBAD_PARAM
  else none

/-! ### Replies -/

/-- A reply (Table 2-5). -/
def replyBytes (opcode st : Nat) (p : Packet) (payload : List Byte) : List Byte :=
  let h := leBytes 2 opcode ++ leBytes 2 st ++ leBytes 2 p.tag.toNat ++ leBytes 2 p.inst.toNat ++
    leBytes 4 payload.length
  h ++ leBytes 4 (crc32c (h ++ payload)) ++ payload

/-- Slots of the command or reply ring. -/
def ringCount (size : Nat) : Nat := 2 ^ size

/-- Free slots of the reply ring: it holds at most its size minus one (R52). -/
def rplFree (r : Rings) : Nat :=
  ringCount r.rplSize - 1 - (r.rplTail + ringCount r.rplSize - r.rplHead) % ringCount r.rplSize

/-- Writes the slots of a reply from a tail, one slot at a time, so that it may wrap (R52). -/
def writeSlots (base count : Nat) : Nat → Nat → List Byte → List Output
  | 0, _, _ => []
  | k + 1, tail, bs =>
    .reply (base + 64 * tail) (bs.take 64) :: writeSlots base count k ((tail + 1) % count) (bs.drop 64)

/-- Puts a reply in the ring, which has room, and signals it. -/
def putReply (s : State) (bytes : List Byte) : State :=
  let k := cdiv bytes.length 64
  let n := ringCount s.ring.rplSize
  let s := (writeSlots s.ring.rplBase n k s.ring.rplTail bytes).foldl emitHost s
  let s := { s with ring := { s.ring with rplTail := (s.ring.rplTail + k) % n } }
  fireHeld (writeMirror s) 0

/-- Discards a reply due to a disabled ring (R53). -/
def dropReply (s : State) : State :=
  setRingStatus s s.ring.rplDropped (fun r => { r with rplDropped := true })

/-- Posts a reply to the ring, holds it, or discards it (R53). -/
def ringReply (s : State) (bytes : List Byte) : State :=
  if !s.ring.rplEn then dropReply s
  else if cdiv bytes.length 64 ≤ rplFree s.ring then putReply s bytes
  else setRingStatus s s.ring.rplStall (fun r => { r with rplStall := true, held := some bytes })

/-- The mailbox of a source. -/
def srcMbx : Source → Option Mbx
  | .ring => none
  | .spi => some .spi
  | .smbus => some .smbus

/-- Completes a packet at its source (R53, R60, R84, R85). -/
def reply (s : State) (opcode : Nat) (p : Packet) (st : Nat) (payload : List Byte) : State :=
  let quiet := pktNoReply p && decide (st = stOK)
  match srcMbx p.src with
  | none => if quiet then s else ringReply s (replyBytes opcode st p payload)
  | some m =>
    setMbx s m (fun b =>
      if quiet then { b with busy := false }
      else { b with busy := false, rplReady := true, rplBuf := replyBytes opcode st p payload })

/-! ### Reading (R51 to R53, R64, R84, R89) -/

/-- The mode serves packets: not BOOT, and not DORMANT (R89, R96, R99). -/
def servesPackets (s : State) : Bool := s.md.mode ≠ .boot && s.md.mode ≠ .dormant

/-- A source has a packet ready; under an enabled drive instruction only the mailboxes are served (R551). -/
def hasPacket (s : State) : Source → Bool
  | .ring => !tapDrives s && s.ring.cmdEn && s.host.bme && !s.ring.cmdHalt && decide (s.ring.cmdHead ≠ s.ring.doorbell)
  | .spi => s.spi.busy
  | .smbus => s.smbus.busy

/-- The place of a source in the rotation of R64. -/
def turnOf : Source → Nat
  | .ring => 0 | .spi => 1 | .smbus => 2

/-- The source at a place of the rotation. -/
def sourceAt (k : Nat) : Source := if k % 3 = 0 then .ring else if k % 3 = 1 then .spi else .smbus

/-- No source that comes before this one in the rotation has a packet ready (R64). -/
def itsTurn (s : State) (src : Source) : Bool :=
  (List.range ((turnOf src + 3 - s.ring.turn % 3) % 3)).all (fun i => !hasPacket s (sourceAt (s.ring.turn + i)))

/-- Whose turn comes after a source has been served. -/
def nextTurn (src : Source) : Nat := (turnOf src + 1) % 3

/-- The packet stands at its source, and nothing but the rotation can keep it from being read now. -/
def waiting (s : State) (opcode : Nat) (p : Packet) : Bool :=
  servesPackets s && !s.ring.rplStall && hasPacket s p.src &&
  match srcMbx p.src with
  | none => true
  | some m => decide (memRead (mbx s m).cmdBuf 0 (packetBytes opcode p).length = packetBytes opcode p)

/-- The packet can be read now. -/
def readable (s : State) (opcode : Nat) (p : Packet) : Bool := waiting s opcode p && itsTurn s p.src

/-- Moves CMD_HEAD past a packet of the ring, and passes the turn on (R64). -/
def consume (s : State) (p : Packet) : State :=
  { s with ring := { s.ring with
      turn := nextTurn p.src
      cmdHead := if p.src = .ring then (s.ring.cmdHead + p.slots.toNat) % ringCount s.ring.cmdSize else s.ring.cmdHead } }

/-- R58: a ring packet fails framing or check. -/
def haltRing (s : State) (opcode : Nat) (p : Packet) (st : Nat) (payload : List Byte) : State :=
  let s := ringReply { s with ring := { s.ring with turn := nextTurn .ring } } (replyBytes opcode st p payload)
  let s := setRingStatus s s.ring.cmdHalt (fun r => { r with cmdHalt := true })
  raiseLatched s 0x0201 0 s.ring.cmdHead

/-! ### The order of checks (Table 2-7) -/

/-- What the header instance of an opcode names. -/
inductive InstRule where
  | zero                  -- the opcode addresses no unit: it must be 0
  | unit (kind : Nat)     -- an instance of a unit kind (Table 2-12)
  | below (n : Nat)       -- one of `n` instances that every variant has
  deriving DecidableEq, Repr

/-- How an opcode is checked. The payload given to the functions is the opcode's own (R59). Those of steps 5 to 7 judge it
as far as it reaches, since its length is judged at step 8; the others are asked only about one of the right length
(R565). -/
structure CmdSpec where
  opcode   : Nat
  atOk     : Bool := false
  inst     : InstRule := .zero
  modes    : List Mode := [.idle, .analyse, .record, .watch, .service, .safe]
  len      : List Byte → Bool := fun p => decide (p.length = 0)
  absent   : State → Nat → List Byte → Bool := fun _ _ _ => false
  denied   : State → Nat → List Byte → Bool := fun _ _ _ => false
  badState : State → Nat → List Byte → Bool := fun _ _ _ => false
  badParam : State → Nat → List Byte → Bool → Bool := fun _ _ _ _ => false
  atModes  : List Mode := [.boot, .idle, .analyse, .record, .watch, .dormant, .service, .safe]   -- modes that serve it with AT_ORDINAL
  chan     : State → Nat → List Byte → List Nat := fun s _ _ => [cueChan s]
  runs     : Bool := false          -- the cue channel must run without AT_ORDINAL too
  held     : State → Nat → List Byte → Option OpState := fun _ _ _ => none   -- the state of an operation that holds what it needs
  starts   : Bool := false
  noSpace  : State → Nat → List Byte → Option Nat → Bool := fun _ _ _ _ => false
  fail     : State → Nat → List Byte → Nat → Nat → List Byte := fun _ _ _ _ _ => []
                          -- the reply payload of a failure: payload, instance, step, status

/-- Every byte of a range is zero (R13). -/
def zeroBytes (p : List Byte) (off n : Nat) : Bool := ((p.drop off).take n).all (fun b => b = 0)

/-- The commands of an engine class that address CL0 (R98): the engines AE0 to AE15. -/
def toCluster0 (inst : Nat) : Bool := decide (inst < 16)

/-- The mode part of step 7 that every opcode shares (R95, R97, R98, R107). -/
def servedNow (s : State) (opcode inst : Nat) (own : List Byte) : Bool :=
  let cls := opcode / 256
  if s.md.romServes then
    decide (opcode = 0x0001) || decide (opcode = 0x0201) || decide (cls = 0x01) || decide (cls = 0x14) ||
    (decide (opcode = 0x0002) &&
      (List.range (fld own 0 2)).all (fun k => decide (fld own (8 + 8 * k) 2 / 256 = 0)))
  else if s.md.transit.isSome then
    decide (opcode = 0x0001) || decide (opcode = 0x0002) || decide (cls = 0x01) ||
    (decide (opcode = 0x0004) && decide (fld own 0 1 = 7))
  else match s.md.mode with
    | .watch =>
      decide (cls ≤ 0x02) || decide (cls = 0x0F) || decide (cls = 0x10) || decide (cls = 0x11) ||
      (decide (cls = 0x0C) && toCluster0 inst)
    | .safe =>
      decide (opcode = 0x0001) || decide (opcode = 0x0002) || decide (cls = 0x01) || decide (cls = 0x02) ||
      decide (cls = 0x14) || decide (opcode = 0x1150) ||
      (decide (opcode = 0x0004) && (decide (fld own 0 1 = 1) || decide (fld own 0 1 = 7)))
    | .boot => false
    | .dormant => false
    | _ => true

/-- R504: the commands that change configuration. Reads, transfers of class 0x0E, `SCRUB_FULL` and the commands on a
device's own store change none. DEDUCED, see assumption 24. -/
def changesConfig (opcode : Nat) : Bool :=
  let cls := opcode / 256
  decide (4 ≤ cls) && decide (cls ≤ 0x10) && decide (cls ≠ 0x0A) && decide (cls ≠ 0x0E) &&
  !([0x0410, 0x0711, 0x0855, 0x0856, 0x0B54, 0x0B56, 0x0C20, 0x0D41, 0x1050].contains opcode)

/-- The parameter IDs that a `SET_PARAM` payload names. -/
def setIds (own : List Byte) : List Nat := (List.range (fld own 0 2)).map (fun k => fld own (8 + 16 * k) 2)

/-- What a synchronised UNDERSTUDY refuses of its own sources, and a LEAD forwards (R504, R509). -/
def pairGoverns (opcode : Nat) (own : List Byte) : Bool :=
  changesConfig opcode || decide (opcode = 5) || decide (opcode = 6) || (decide (opcode = 4) && decide (fld own 0 1 ≠ 7)) ||
  (decide (opcode = 3) && (setIds own).any (fun i => decide (0x0400 ≤ i) && decide (i < 0x1100)))

/-- The instance rule, for step 5. -/
def instAbsent (s : State) (r : InstRule) (i : Nat) : Bool :=
  match r with
  | .unit k => decide (i < kindWidth k) && !fitted s.variant k i
  | _ => false

/-- The instance rule, for step 8. -/
def instBad (r : InstRule) (i : Nat) : Bool :=
  match r with
  | .zero => decide (i ≠ 0)
  | .unit k => decide (kindWidth k ≤ i)
  | .below n => decide (n ≤ i)

/-- R33: the cue ordinal stands at least the scheduling lead ahead of the channel's current ordinal. -/
def leadOk (s : State) (c ord : Nat) : Bool := decide (ordNext s c + schedLead s c ≤ ord + 1)

/-- The self-test of Table 20-2 that drives the units of a class, by the class number of an opcode or parameter ID. -/
def testOfId (id : Nat) : Option Nat :=
  match id / 256 with
  | 0x04 => some 0 | 0x06 => some 1 | 0x07 => some 2 | 0x08 => some 3 | 0x0C => some 5 | 0x0D => some 6 | 0x10 => some 7
  | 0x0B => if id % 256 < 0x20 || (decide (0x50 ≤ id % 256) && decide (id % 256 < 0x55)) then some 4 else some 10
  | 0x0F => if id < 0x0F30 then some 8 else some 9
  | _ => none

/-- A live `SELF_TEST` holds the units of a class (R82). -/
def testHolds (s : State) (id : Nat) : Bool :=
  match liveOp s 0x1340, testOfId id with
  | some o, some t => bit o.total t
  | _, _ => false

/-- Steps 3 to 12 of Table 2-7: the step that fails and its status. Poison that the stage manager received fails the command that
needed the data with `HW_FAULT` (Table 13-4); which command that is, the manual leaves open. DESIGN CHOICE, see assumption
65: the next one that passes every other check. `own_` says that the packet comes from a source of
the device's own, not from its LEAD: a forwarded cue ordinal needs no lead, only not to have passed (R510). -/
def checks (own_ : Bool) (c : CmdSpec) (s : State) (p : Packet) : Option (Nat × Nat) :=
  let whole := payloadOf p
  let at_ := pktAt p
  let own := if at_ then whole.drop 8 else whole
  let inst := p.inst.toNat
  let lenOk := (!at_ || decide (8 ≤ whole.length)) && c.len own
  let ord := fld whole 0 8
  if p.flags.toNat / 4 ≠ 0 || (at_ && !c.atOk) then some (4, stBAD_PARAM)
  else if instAbsent s c.inst inst || c.absent s inst own then some (5, stUNIT_ABSENT)
  else if c.denied s inst own then some (6, stDENIED)
  else if !c.modes.contains s.md.mode || !servedNow s c.opcode inst own || c.badState s inst own ||
      (at_ && !c.atModes.contains s.md.mode) ||
      (own_ && decide (s.pair.role = 2) && s.pair.sync && pairGoverns c.opcode own) then
    some (7, stBAD_STATE)
  else if instBad c.inst inst || !lenOk || c.badParam s inst own at_ then some (8, stBAD_PARAM)
  else if (at_ || c.runs) && !(c.chan s inst own).all (running s) then some (9, stBAD_STATE)
  else if at_ && own_ && !(c.chan s inst own).all (fun k => leadOk s k ord) then some (9, stORDINAL_PASSED)
  else if (at_ && decide (256 ≤ s.pend.length)) || (c.starts && decide (16 ≤ (liveOps s).length)) ||
      (changesConfig c.opcode && testHolds s c.opcode) then some (10, stBUSY)
  else match c.held s inst own with
    | some .suspended => some (11, stSUSPENDED)
    | some _ => some (10, stBUSY)
    | none => if c.noSpace s inst own (if at_ then some ord else none) then some (12, stNO_SPACE)
      else if s.hbm.smpPoison then some (12, stHW_FAULT) else none

/-- The command that met the stage manager's poison has completed. -/
def smpAnswered (s : State) (st : Nat) : State :=
  if st = stHW_FAULT then { s with hbm := { s.hbm with smpPoison := false } } else s

/-- What execution answers: status, reply payload, next state. -/
abbrev Ran := Nat × List Byte × State

/-- A LEAD forwards an accepted command to its synchronised UNDERSTUDY (R509): at the same cue ordinal, or at the
applied ordinal that the reply carries, or as it stands. -/
def forward (s : State) (opcode : Nat) (p : Packet) (own : List Byte) (st : Nat) (out : List Byte) : State :=
  if decide (s.pair.role = 1) && s.pair.sync && s.pair.link && pairGoverns opcode own &&
      (decide (st = stOK) || decide (st = stACCEPTED)) then
    let ords := if pktAt p then []
      else if opcode = 3 then ((List.range (fld out 0 2)).map (fun k => fld out (8 + 16 * k) 8)).filter (fun n => decide (n < 2 ^ 64 - 1))
      else if out.length = 8 then [fld out 0 8] else []
    match ords with
    | n :: _ => emit s (.linkConfig opcode { p with flags := p.flags ||| 1#8, len := p.len + 8#32, payload := leBytes 8 n ++ payloadOf p })
    | [] => emit s (.linkConfig opcode p)
  else s

/-- The effect of a forwarded packet (R509): checked but for R504, and executed; the status it completes with. -/
def runForwarded (c : CmdSpec) (run : State → Packet → Nat → List Byte → Option Nat → Ran) (p : Packet) (s : State) : Nat × State :=
  let whole := payloadOf p
  let own := if pktAt p then whole.drop 8 else whole
  match checks false c s p with
  | some (_, st) => (st, s)
  | none =>
    let (st, _, s') := run s p p.inst.toNat own (if pktAt p then some (fld whole 0 8) else none)
    (st, s')

/-- Reads, checks and executes a packet, and completes it (R63 to R65). A packet that cannot be read from its source
now has no effect: it stays where it is. -/
def runPacket (c : CmdSpec) (run : State → Packet → Nat → List Byte → Option Nat → Ran) (p : Packet) (s : State) :
    State :=
  if !readable s c.opcode p then s else
  match frameCheck c.opcode p, p.src with
  | some st, .ring => haltRing s c.opcode p st (c.fail s p.inst.toNat (payloadOf p) 1 st)
  | some st, _ => reply (consume s p) c.opcode p st (c.fail s p.inst.toNat (payloadOf p) 1 st)
  | none, _ =>
    let s := consume s p
    let whole := payloadOf p
    let own := if pktAt p then whole.drop 8 else whole
    match checks true c s p with
    | some (step, st) => reply (smpAnswered s st) c.opcode p st (c.fail s p.inst.toNat own step st)
    | none =>
      let (st, out, s') := run s p p.inst.toNat own (if pktAt p then some (fld whole 0 8) else none)
      reply (forward s' c.opcode p own st out) c.opcode p st out

/-- Schedules a change at a cue ordinal (R34): the reply is OK once it is scheduled (R65). -/
def schedule (s : State) (p : Packet) (opcode chan ord : Nat) (act : PendAct) : State :=
  { s with pend := s.pend ++ [{ chan, ord, tag := p.tag.toNat, opcode, inst := p.inst.toNat, act }] }

/-- The reply of a command whose change takes effect at an applied ordinal (R38). -/
def appliedReply (ord : Nat) : List Byte := leBytes 8 ord

/-- The state, by handle order, of the first live operation of an opcode that holds a resource (R82). -/
def heldBy (s : State) (opcodes : List Nat) : Option OpState :=
  match (liveOps s).filter (fun o => opcodes.contains o.opcode) with
  | [] => none
  | o :: os => if (o :: os).any (fun x => x.state ≠ .suspended) then some .running else some .suspended

/-- Discards the pending changes that a test picks, with `CUE_DISCARDED` for each (R37, R95). -/
def discardPend (s : State) (f : PendChange → Bool) : State :=
  let gone := s.pend.filter f
  let s := { s with pend := s.pend.filter (fun c => !f c) }
  gone.foldl (fun s c => raise s 0x0213 c.inst (c.tag + c.opcode * 65536) (some (c.chan, c.ord))) s

/-! ### Undefined opcodes -/

/-- Every opcode that the device defines. -/
def definedOpcodes : List Nat :=
  [0x0001, 0x0002, 0x0003, 0x0004, 0x0005, 0x0006, 0x0101, 0x0102, 0x0103, 0x0104, 0x0201, 0x0202, 0x0203, 0x0410, 0x0411, 0x0440,
   0x0510, 0x0710, 0x0711, 0x0850, 0x0851, 0x0852, 0x0853, 0x0854, 0x0855, 0x0856, 0x0950, 0x0951] ++
  [0x0A40, 0x0A41, 0x0A42, 0x0A50, 0x0A51, 0x0A52, 0x0A53, 0x0B50, 0x0B51, 0x0B52, 0x0B53, 0x0B54, 0x0B55, 0x0B56, 0x0C20, 0x0C21,
   0x0C30, 0x0C31, 0x0C32, 0x0C33, 0x0D40, 0x0D41, 0x0E10, 0x0E11, 0x0E12, 0x1050, 0x1140, 0x1150, 0x1240, 0x1250] ++
  [0x1340, 0x1420, 0x1421, 0x1430, 0x1431, 0x1432, 0x1433, 0x1440, 0x1450]

/-- The packet that a CMD_BUF holds. -/
def bufPacket (m : Mbx) (b : Memory) : Packet :=
  let w := fun (off n : Nat) => leNat (memRead b off n)
  { src := match m with
      | .spi => .spi
      | .smbus => .smbus
    flags := BitVec.ofNat 8 (w 2 1), slots := BitVec.ofNat 8 (w 3 1), tag := BitVec.ofNat 16 (w 4 2), inst := BitVec.ofNat 16 (w 6 2)
    len := BitVec.ofNat 32 (w 8 4), check := BitVec.ofNat 32 (w 12 4), payload := memRead b 16 (Nat.min 4080 (w 8 4)) }

/-- Step 3 of Table 2-7 for a mailbox: a packet whose opcode the device does not define. Its one effect is its reply, at a
source of its own, so its place in the rotation cannot be told. -/
def undefinedOpcode (s : State) (m : Mbx) : State :=
  let op := leNat (memRead (mbx s m).cmdBuf 0 2)
  let p := bufPacket m (mbx s m).cmdBuf
  if definedOpcodes.contains op || !waiting s op p then s
  else reply s op p ((frameCheck op p).getD stBAD_OPCODE) []

/-- The same for a packet of the command ring. -/
def undefinedInRing (s : State) (op : Nat) (p : Packet) : State :=
  if definedOpcodes.contains op || !readable s op { p with src := .ring } then s
  else match frameCheck op p with
    | some st => haltRing s op p st []
    | none => ringReply (consume s { p with src := .ring }) (replyBytes op stBAD_OPCODE p [])

/-- The same for both mailboxes, once packets are served again. -/
def undefinedOpcodes (s : State) : State := undefinedOpcode (undefinedOpcode s .spi) .smbus

end Sys2Proof.Machine
end

