-- ==== Sys2Proof/Machine/Stamps.lean ====
section
/-! DEFINITION. Local time, ticks and assigned ordinals (R464 to R467), time anchors (R39, R468), and the wake
sources (R100 to R102). -/
namespace Sys2Proof.Machine

/-! ### Local time (R464) -/

/-- R464: r2 - r1 differs from its factory value by more than 10%. -/
def calFail (st : RawStamp) : Bool :=
  let d : Int := (st.r2 : Int) - (st.r1 : Int)
  decide ((st.factory : Int) < 10 * (d - (st.factory : Int)).natAbs)

/-- T of R464 from a coarse count, a reading and the two readings of one and two periods. -/
def localT (coarse r r1 r2 : Nat) : Nat :=
  let d : Int := (r2 : Int) - (r1 : Int)
  let q : Int := 800 * d + 800 * ((r : Int) - (r1 : Int))
  let t := if d ≤ 0 then 0 else (2 * q + d) / (2 * d)
  (((800 * coarse : Nat) : Int) - t).emod ((2 ^ 64 : Nat) : Int) |>.toNat

/-- T of a stamp: by the calibration just taken, or by the last good one where that failed. -/
def stampT (st : RawStamp) : Nat :=
  if calFail st then localT st.coarse st.r st.lastR1 st.lastR2 else localT st.coarse st.r st.r1 st.r2

/-- T of a stamp taken by the coarse counter alone (R461). -/
def coarseT (st : RawStamp) : Nat := (800 * st.coarse) % 2 ^ 64

/-- A difference of local times. -/
def dLocal (a b : Nat) : Nat := (a + (2 ^ 64 - b % 2 ^ 64)) % 2 ^ 64

/-! ### Ticks and assigned ordinals (R466) -/

/-- The sampling instant of an ordinal of the cue channel that is a multiple of 16,384 is stamped. Its local time is a
free value above that of the tick before it. -/
def tickAt (s : State) (c n : Nat) : State :=
  if c = cueChan s && decide (n % 16384 = 0) then
    let (f, s) := takeFree s
    let before := match s.tiu.ticks with
      | some (_, b) => b.t
      | none => s.tiu.lastT
    let k : Tick := { ord := n, t := (before + 1 + f) % 2 ^ 64 }
    { s with tiu := { s.tiu with ticks := match s.tiu.ticks with
        | some (_, b) => some (b, k)
        | none => some (k, k) } }
  else s

/-- x of R466, in 2^-32 ordinals, from two ticks. -/
def ordBetween (a b : Tick) (t : Nat) : Option Nat :=
  let d := dLocal b.t a.t
  if b.ord = a.ord || decide (d = 0) then none
  else some (b.ord * 2 ^ 32 + (dLocal t b.t * (b.ord - a.ord) * 2 ^ 32) / d)

/-- The assigned ordinal and fraction of an edge at local time t, while the cue channel runs. Before there are two ticks
the spec gives no value: they are free. -/
def assignOrd (s : State) (t : Nat) : Option (Nat × Nat) × State :=
  if !running s (cueChan s) then (none, s)
  else match s.tiu.ticks.bind (fun k => ordBetween k.1 k.2 t) with
    | some x => (some (x / 2 ^ 32, x % 2 ^ 32), s)
    | none =>
      let (f, s) := takeFree s
      let (g, s) := takeFree s
      (some (f % 2 ^ 64, g % 2 ^ 32), s)

/-- TIME80 of an edge (R467), in 2^-32 s, where TIME_VALID is set; zero otherwise. Where R39 has no rate yet the value
is free. -/
def stampTime (s : State) (t : Nat) (o : Option (Nat × Nat)) : Nat × State :=
  match s.tiu.ppsT with
  | none => (0, s)
  | some p =>
    match o with
    | none => (s.tiu.ppsTime + dLocal t p * 2 ^ 32 / (2 * 10 ^ 12), s)
    | some (n, f) =>
      match timeOfOrd s n f with
      | some x => (x % 2 ^ 80, s)
      | none => let (v, s) := takeFree s; (v % 2 ^ 80, s)

/-! ### Time anchors (R39, R161, R468) -/

/-- The instant of an anchor's edge in 2^-32 ordinals. -/
def anchorAt (a : Anchor) : Nat := (((a.ord * 2 ^ 32 : Nat) : Int) + a.offset).toNat

/-- The ordinal nearest an edge at `n` and a fraction, and the edge's offset from it (R39). -/
def nearestOrd (n f : Nat) : Nat × Int := if f < 2 ^ 31 then (n, (f : Int)) else (n + 1, (f : Int) - 2 ^ 32)

/-- The rate between two anchors of one run, in mHz. -/
def rateBetween (a b : Anchor) : Option Nat :=
  let xa := anchorAt a
  let xb := anchorAt b
  if a.chan = b.chan && decide (xa < xb) && decide (a.time < b.time) then
    some (qRoundNat ((xb - xa) * 1000) (b.time - a.time))
  else none
where
  /-- A quotient rounded half up. -/
  qRoundNat (x d : Nat) : Nat := (2 * x + d) / (2 * d)

/-- Records a time anchor. -/
def putAnchor (s : State) (a : Anchor) : State :=
  let rate := match s.tiu.anchor with
    | some b => (rateBetween b a).getD s.tiu.rateMhz
    | none => s.tiu.rateMhz
  { s with tiu := { s.tiu with anchorB := s.tiu.anchor, anchor := some a, rateMhz := rate } }

/-! ### Wake (R100 to R102) -/

/-- Whether Table 3-6 lists a source for a mode. -/
def wakeListed (m : Mode) (b : Nat) : Bool :=
  match m with
  | .watch => decide (b < 5)
  | .dormant => decide (b = 0) || decide (b = 4) || decide (b = 5)
  | _ => false

/-- Sets the bit of a source in `sys.wake_cause`, and its stamp where it was stamped. -/
def noteWake (s : State) (b : Nat) (t : Option Nat) : State :=
  { s with md := { s.md with wakeCause := s.md.wakeCause ||| (1 <<< b), wakeStamp := s.md.wakeStamp.orElse (fun _ => t) } }

/-- The wake transition begins (R100). -/
def beginWake (s : State) : State :=
  { s with md := { s.md with
      waking := true, wakePending := false, wakeTimerOn := false,
      transit := some { target := (modeOf (par s 0x0018 0)).getD .idle, reason := 1 } } }

/-- A wake source fires. During entry to WATCH or DORMANT it waits for the entry to complete (R102); during a wake
transition it adds its bit. -/
def fireWake (s : State) (b : Nat) (t : Option Nat) : State :=
  if !bit (par s 0x0017 0) b then s
  else match s.md.transit with
    | some tr =>
      if s.md.waking then (if wakeListed s.md.mode b then noteWake s b t else s)
      else if wakeListed tr.target b then
        let s := noteWake s b t
        { s with md := { s.md with wakePending := true } }
      else s
    | none => if wakeListed s.md.mode b then beginWake (noteWake s b t) else s

end Sys2Proof.Machine
end

