-- ==== Sys2Proof/Machine/Usf.lean ====
section
/-! DEFINITION. The Usdom Store Format on a member drive: blocks, superblock, slot map, journal, catalogue (R274 to R279, R283,
R286). -/
namespace Sys2Proof.Machine

/-- Replaces bytes of a block from an offset. -/
def setBytes (b : List Byte) (off : Nat) (new : List Byte) : List Byte :=
  b.take off ++ new ++ b.drop (off + new.length)

/-- 4,092 bytes and their CRC-32C. -/
def checked (b : List Byte) : List Byte :=
  let c := padTo 4092 b
  c ++ leBytes 4 (crc32c c)

/-- A 4 KiB block whose check holds. -/
def checkHolds (b : List Byte) : Bool := decide (b.length = 4096) && decide (fld b 4092 4 = crc32c (b.take 4092))

/-- The first block of a slot (R274). -/
def slotBlock (slot : Nat) : Nat := 16384 * slot

/-! ### Blocks of extents (Table 9-11) -/

/-- A block with its trailer. -/
def usfBlock (storeId serial record index used kind flags : Nat) (payload : List Byte) : List Byte :=
  checked (padTo 4064 payload ++ leBytes 8 record ++ leBytes 4 index ++ leBytes 2 used ++ leBytes 1 kind ++ leBytes 1 flags ++
    leBytes 8 storeId ++ leBytes 4 serial)

/-- A block is valid (R277): its check holds, its store ID is the superblock's, its serial the slot map's. -/
def blockValid (storeId serial : Nat) (b : List Byte) : Bool :=
  checkHolds b && decide (fld b 4080 8 = storeId % 2 ^ 64) && decide (fld b 4088 4 = serial % 2 ^ 32)

/-- The tweak of a data unit (R279). -/
def xtsTweak (member block : Nat) : Nat := member * 2 ^ 64 + block

/-- A placed block as it stands on one copy: a data block of an encrypted store is enciphered where it lies (R279). -/
def copyBlock (t : Store) (serial member block : Nat) (b : BlockRec) : List Byte :=
  let cipher := t.encrypted && decide (b.kind = 0)
  let p := padTo 4064 b.data
  usfBlock t.storeId serial b.record b.index (if b.kind = 0 then b.data.length else 512) b.kind
    (flags [(0, cipher), (1, b.poison), (2, b.final)])
    (if cipher then Config.aesXts t.keyId (xtsTweak member block) p else p)

/-! ### Slot map (R276) -/

/-- The entry of a slot of a member (Table 9-10). -/
def slotEntry (t : Store) (m k : Nat) : List Byte :=
  let here := fun (c : CopyRec) => decide (c.member = m) && decide (c.slot = k)
  match t.extents.find? (fun e => e.copies.any here) with
  | some e =>
    let i := (e.copies.takeWhile (fun c => !here c)).length
    let st := if (e.copies.filter here).any (·.failed) then 3 else e.state
    leBytes 8 e.serial ++ leBytes 1 1 ++ leBytes 1 st ++ leBytes 1 e.unit ++ leBytes 1 i ++ leBytes 2 (e.blocks.length % 16384) ++ zeros 2
  | none => match t.catExtents.find? (fun c => c.2.contains (m, k)) with
    | some c =>
      let n := if c.1 = t.catTip then cdiv t.catFill 7 else 16384
      leBytes 8 c.1 ++ leBytes 1 2 ++ leBytes 1 2 ++ leBytes 1 0xFF ++ leBytes 1 (c.2.takeWhile (fun x => x ≠ (m, k))).length ++
        leBytes 2 (n % 16384) ++ zeros 2
    | none => zeros 16

/-- The map block that holds a slot's entry. -/
def mapBlockOf (slot : Nat) : Nat := 8192 + (slot - 1) / 255

/-- A map block of a member: its 255 entries, and its check. -/
def mapBlock (t : Store) (m b : Nat) : List Byte :=
  checked ((List.range 255).flatMap (fun i => slotEntry t m (255 * (b - 8192) + 1 + i)))

/-! ### Journal (R283) -/

/-- A journal entry as 64 bytes. -/
def entryBytes (j : JEntry) : List Byte :=
  let b := leBytes 8 j.seq ++ leBytes 1 j.typ ++ zeros 7 ++ padTo 44 j.body
  b ++ leBytes 4 (crc32c b)

/-- The block of the journal ring that holds a sequence number. -/
def journalBlockOf (seq : Nat) : Nat := 16 + (seq - 1) / 64 % 8176

/-- The journal block with the entries of the numbers from 64 g + 1 on. -/
def journalBlock (t : Store) (g : Nat) : List Byte :=
  padTo 4096 ((t.journal.filter (fun j => decide ((j.seq - 1) / 64 = g))).flatMap entryBytes)

/-! ### Superblock (R275) -/

/-- The superblock of a member (Table 9-9). Members carry the numbers of their ports. DESIGN CHOICE, see assumption 66. -/
def superblock (t : Store) (m : Nat) : List Byte :=
  let ms := t.members
  checked (([0x55, 0x53, 0x44, 0x4F, 0x4D, 0x53, 0x46, 0x31] : List Byte) ++ leBytes 2 1 ++
    leBytes 2 (flags [(0, t.mirror), (1, t.encrypted), (2, t.clean)]) ++
    leBytes 1 (ms.filter (fun x => decide (x.state = 1) || decide (x.state = 2))).length ++ leBytes 1 m ++ zeros 2 ++
    leBytes 16 t.storeId ++ leBytes 8 t.generation ++ leBytes 10 t.formattedAt ++ zeros 6 ++ leBytes 8 t.formatter ++
    (ms.zipIdx).flatMap (fun x => leBytes 1 x.2 ++ leBytes 1 (if x.1.state = 1 || x.1.state = 2 then x.1.state else 0) ++ zeros 2 ++
      leBytes 4 x.1.slots) ++
    leBytes 8 t.checkpoint ++ leBytes 4 (journalBlockOf t.checkpoint) ++ zeros 4 ++ leBytes 8 t.nextRecord ++ leBytes 8 t.nextSerial ++
    leBytes 8 t.catTip ++ leBytes 4 t.catFill ++ leBytes 8 t.keyId ++ leBytes 1 t.keySlot)

/-- The block that the copy of a generation is written to: A and B in turn. -/
def superCopy (generation : Nat) : Nat := (generation + 1) % 2

/-- A superblock that can be read: magic, version and check. -/
def superValid (b : List Byte) : Bool :=
  checkHolds b && decide (b.take 8 = ([0x55, 0x53, 0x44, 0x4F, 0x4D, 0x53, 0x46, 0x31] : List Byte)) && decide (fld b 8 2 = 1)

/-- The generation of a superblock. -/
def superGen (b : List Byte) : Nat := fld b 32 8

/-- Of the superblocks that can be read, the one with the highest generation. -/
def newestSuper (l : List (List Byte)) : Option (List Byte) :=
  (l.filter superValid).foldl (fun a b => match a with
    | none => some b
    | some x => if superGen x < superGen b then some b else some x) none

/-! ### Drives (R273, R274) -/

/-- The capacity of a drive that is used. -/
def usedBytes (p : PortFacts) : Nat := Nat.min p.capacity (2 ^ 46)

/-- S of a drive. -/
def driveSlots (p : PortFacts) : Nat := Nat.min (usedBytes p / 2 ^ 26 - 1) 1048575

/-- A drive outside the limits of Table 9-7. -/
def driveUnsuited (p : PortFacts) : Bool :=
  !(decide (p.lba = 512) || decide (p.lba = 4096)) || p.extras || decide (driveSlots p = 0)

/-- The blocks that one write command of a member carries. -/
def writeBlocks (m : Member) : Nat := Nat.max 1 (Nat.min 256 (m.mdts / 4096))

/-- Blocks cut in the pieces of the write commands. -/
def writePieces (n : Nat) : Nat → Nat → List (List Byte) → List (Nat × List Byte)
  | 0, _, _ => []
  | f + 1, b, l => if l.isEmpty then [] else (b, (l.take n).flatten) :: writePieces n f (b + n) (l.drop n)

/-- The writes of consecutive blocks of a member. -/
def memberWrites (t : Store) (m block : Nat) (l : List (List Byte)) : List Output :=
  (writePieces (writeBlocks (nth t.members m {})) l.length block l).map (fun x => .nvmeWrite m x.1 x.2)

end Sys2Proof.Machine
end

