-- ==== Sys2Proof/Machine/Store.lean ====
section
/-! DEFINITION. The store: journal, extents, copies, record states, members, mount and seal (R273 to R297). -/
namespace Sys2Proof.Machine

def setStore (s : State) (f : Store → Store) : State := { s with store := f s.store }

/-- The store takes writes and RECORD: it is mounted READY and not LOCKED (R280). -/
def storeTakes (s : State) : Bool := decide (s.store.state = 2) && s.store.formatted && !s.store.locked

/-- Emits a list of outputs. -/
def emits (s : State) (l : List Output) : State := l.foldl emit s

/-! ### Journal (R283, R284) -/

/-- The UNDERSTUDY shadows what it plays instead of writing it (R512). -/
def shadows (s : State) : Bool := decide (s.pair.role = 2) && decide (par s 0x120A 0 = 0)

/-- Makes a journal entry; it is committed by the next journal write. What an UNDERSTUDY shadows makes none. -/
def jAppend (s : State) (typ : Nat) (body : List Byte) : State :=
  if shadows s && s.md.mode = .record then s else
  setStore s (fun t => { t with jseq := t.jseq + 1, journal := t.journal ++ [{ seq := t.jseq + 1, typ, body }] })

/-- The active members, in ascending index. -/
def activeMembers (t : Store) : List Nat :=
  (List.range 8).filter (fun m => decide ((nth t.members m {}).state = 1))

/-! ### Slots (R274, R282) -/

/-- The lowest number from `n` that an ascending list omits. -/
def lowestFree (n : Nat) : List Nat → Nat
  | [] => n
  | u :: us => if u ≤ n then lowestFree (if u = n then n + 1 else n) us else n

/-- Inserts into an ascending list. -/
def insertAsc (x : Nat) : List Nat → List Nat
  | [] => [x]
  | y :: ys => if x ≤ y then x :: y :: ys else y :: insertAsc x ys

/-- The lowest free slot of a member, 1 to S. -/
def freeSlot (m : Member) : Option Nat :=
  let k := lowestFree 1 m.used
  if k ≤ m.slots then some k else none

/-- The members after index `c`, in the cycle. -/
def cycleFrom (t : Store) (c : Nat) : List Nat :=
  let a := activeMembers t
  a.filter (fun m => decide (c < m)) ++ a.filter (fun m => decide (m ≤ c))

/-- The next member in the cycle with a free slot, other than those excluded, and that slot. -/
def allocate (t : Store) (c : Nat) (excl : List Nat) : Option (Nat × Nat) :=
  (cycleFrom t c).findSome? (fun m =>
    if excl.contains m then none else (freeSlot (nth t.members m {})).map (fun k => (m, k)))

/-- Marks a slot as in use, or frees it. -/
def takeSlot (t : Store) (m k : Nat) : Store :=
  { t with members := lmod t.members m (fun x => { x with used := insertAsc k x.used }), touched := t.touched ++ [(m, k)] }
def dropSlot (t : Store) (m k : Nat) : Store :=
  { t with members := lmod t.members m (fun x => { x with used := x.used.filter (fun u => u ≠ k) }), touched := t.touched ++ [(m, k)] }

/-- Free slots over the active members (`store.free`). -/
def freeSlots (t : Store) : Nat :=
  (activeMembers t).foldl (fun a m => a + ((nth t.members m {}).slots - (nth t.members m {}).used.length)) 0

/-! ### Record headers in the catalogue (R286) -/

/-- The damage ranges of a header: the first seven. -/
def damageBytes (l : List Damage) : List Byte :=
  padTo 112 (((l.take 7).map (fun d => leBytes 4 d.first ++ leBytes 4 d.count ++ leBytes 1 d.reason ++ zeros 7)).flatten)

/-- A header with a state and damage, and its check. -/
def stampHeader (h : List Byte) (st : Nat) (l : List Damage) : List Byte :=
  let b := setBytes (setBytes (setBytes (padTo 512 h) 10 (leBytes 1 st)) 240 (leBytes 4 l.length)) 248 (damageBytes l)
  let b := b.take 508
  b ++ leBytes 4 (crc32c b)

def findRec (t : Store) (n : Nat) : Option StoreRec := t.records.find? (fun r => r.number = n)

def setRec (s : State) (n : Nat) (f : StoreRec → StoreRec) : State :=
  setStore s (fun t => { t with records := t.records.map (fun r => if r.number = n then f r else r) })

/-- The catalogue has an open extent: another one is allocated where it has none or a full one, mirrored when two or more
members are active (R286). -/
def openCatalogue (s : State) : State :=
  let t := s.store
  if t.catTip ≠ 0 && decide (t.catFill < 7 * 16384) then s else
  match allocate t t.cycle [] with
  | none => s
  | some (m, k) =>
    let t := { takeSlot t m k with cycle := m }
    let mir := if 2 ≤ (activeMembers t).length then allocate t m [m] else none
    let t := match mir with
      | some x => takeSlot t x.1 x.2
      | none => t
    setStore s (fun _ => { t with
      catTip := t.nextSerial, nextSerial := t.nextSerial + 1, catFill := 0, catBlock := []
      catExtents := t.catExtents ++ [(t.nextSerial, (m, k) :: mir.toList)] })

/-- Writes a catalogue entry: the block that holds it is written on every copy. With no slot for a catalogue extent the entry
waits in the device. DESIGN CHOICE, see assumption 66. -/
def catalogueEntry (s : State) (h : List Byte) : State :=
  let s := openCatalogue (setStore s (fun t => { t with catalogue := t.catalogue ++ [h] }))
  let t := s.store
  match t.catExtents.find? (fun c => decide (c.1 = t.catTip) && decide (t.catFill < 7 * 16384)) with
  | none => s
  | some c =>
    let l := (if t.catBlock.length = 7 then [] else t.catBlock) ++ [h]
    let i := t.catFill / 7
    let s := setStore s (fun t => { t with catBlock := l, catFill := t.catFill + 1, touched := t.touched ++ c.2 })
    emits s (c.2.map (fun x => .nvmeWrite x.1 (slotBlock x.2 + i) (usfBlock t.storeId c.1 0 i (512 * l.length) 2 0 l.flatten)))

/-- Writes a catalogue entry of a record as it stands. -/
def catalogueRec (s : State) (n : Nat) : State :=
  match findRec s.store n with
  | none => s
  | some r => catalogueEntry s (stampHeader r.header r.state r.damage)

/-! ### Record states (R285) -/

/-- Some extent holding blocks of a record is open or PENDING. -/
def recPending (t : Store) (n : Nat) : Bool :=
  t.extents.any (fun e => (decide (e.state ≤ 1) || decide (e.state = 6)) && e.blocks.any (fun b => b.record = n))

/-- Brings a record's state up to date after an extent has changed: PENDING, PLAYED, or RECORD_SEALED is journalled. -/
def updateRec (s : State) (n : Nat) : State :=
  match findRec s.store n with
  | none => s
  | some r =>
    if r.state = 4 then s
    else if recPending s.store n then (if r.state = 3 then s else setRec s n (fun r => { r with state := 0 }))
    else if r.ended && !r.sealed then
      let st := if r.state = 3 then 3 else 2
      let s := jAppend s 0x08 (leBytes 8 n ++ leBytes 1 st)
      setRec s n (fun r => { r with sealed := true, state := if r.state = 3 then 3 else 1 })
    else if r.state = 0 then setRec s n (fun r => { r with state := 1 })
    else s

/-- The records holding blocks in an extent. -/
def extentRecs (e : Extent) : List Nat := (e.blocks.map (·.record)).eraseDups

def setExtent (s : State) (serial : Nat) (f : Extent → Extent) : State :=
  setStore s (fun t => { t with
    extents := t.extents.map (fun e => if e.serial = serial then f e else e)
    touched := t.touched ++ (t.extents.filter (fun e => e.serial = serial)).flatMap (fun e => e.copies.map (fun c => (c.member, c.slot))) })

def findExtent (t : Store) (serial : Nat) : Option Extent := t.extents.find? (fun e => e.serial = serial)

/-- Adds a damaged range to a record (R285): DAMAGE is journalled, the record becomes DAMAGED, and `RECORD_DAMAGED` is
posted at its first damage. -/
def addDamage (s : State) (n : Nat) (d : Damage) : State :=
  match findRec s.store n with
  | none => s
  | some r =>
    let s := jAppend s 0x06 (leBytes 8 n ++ leBytes 8 d.serial ++ leBytes 4 d.first ++ leBytes 4 d.count ++ leBytes 1 d.reason)
    let s := setRec s n (fun r => { r with state := 3, damage := r.damage ++ [d], posted := true })
    if r.posted then s else raise s 0x0A03 r.unit n

/-- Groups ascending block indices into ranges of first and count. -/
def ranges : List Nat → List (Nat × Nat)
  | [] => []
  | i :: is => match ranges is with
    | [] => [(i, 1)]
    | (f, c) :: rest => if i + 1 = f then (i, c + 1) :: rest else (i, 1) :: (f, c) :: rest

/-- Damages the blocks of an extent that a test picks, record by record. -/
def damageExtent (s : State) (e : Extent) (pick : Nat → Bool) (reason : Nat) : State :=
  (extentRecs e).foldl (fun s n =>
    let idx := ((e.blocks.zipIdx).filter (fun b => decide (b.1.record = n) && pick b.2)).map (fun b => b.1.index)
    (ranges idx).foldl (fun s r => addDamage s n { serial := e.serial, first := r.1, count := r.2, reason }) s) s

/-! ### Copies (R283, R287) -/

/-- Frees the confirmed bytes of an extent from its unit (R264). -/
def confirmExtent (s : State) (e : Extent) : State :=
  { s with caps := lmod s.caps e.unit (fun c =>
      let b := tgetD c.extBytes e.serial 0
      { c with playedBytes := c.playedBytes - b, extBytes := tdel c.extBytes e.serial }) }

/-- Settles an extent whose copies have all completed or failed. -/
def settleExtent (s : State) (serial : Nat) : State :=
  match findExtent s.store serial with
  | none => s
  | some e =>
    if e.state ≠ 1 || e.copies.any (fun c => !c.done && !c.failed) then s
    else
      let bits := ((e.copies.zipIdx).foldl (fun m c => if c.1.done then m + 2 ^ c.2 else m) 0)
      let s := confirmExtent s e
      if e.copies.any (·.done) then
        let s := jAppend s 0x03 (leBytes 8 serial ++ leBytes 1 bits)
        let s := setExtent s serial (fun e => { e with state := 2 })
        let s := if e.copies.any (·.failed) then setStore s (fun t => { t with degraded := true }) else s
        (extentRecs e).foldl updateRec s
      else
        let s := setExtent s serial (fun e => { e with state := 3 })
        let s := damageExtent s e (fun _ => true) 1
        (extentRecs e).foldl updateRec s

/-- The writes of a copy of an extent: the blocks placed in it, each with its trailer, as they stand on that member. -/
def copyWrites (t : Store) (e : Extent) (m k : Nat) : List Output :=
  memberWrites t m (slotBlock k) ((e.blocks.zipIdx).map (fun b => copyBlock t e.serial m (slotBlock k + b.2) b.1))

/-- Issues the write of a copy. -/
def issueCopy (s : State) (e : Extent) (c : CopyRec) : State := emits s (copyWrites s.store e c.member c.slot)

/-- A copy of a PENDING extent fails (R287): one retry on another active member, then EXTENT_FAILED. -/
def failCopy (s : State) (serial copy reason : Nat) : State :=
  match findExtent s.store serial with
  | none => s
  | some e =>
    let c := nth e.copies copy { member := 0, slot := 0 }
    if e.state ≠ 1 || c.done || c.failed || decide (e.copies.length ≤ copy) then s
    else
      let fresh := if c.retried then none else allocate s.store s.store.cycle (e.copies.map (·.member))
      match fresh with
      | some (m, k) =>
        let s := jAppend s 0x04 (leBytes 8 serial ++ leBytes 1 copy ++ leBytes 1 c.member ++ leBytes 1 m ++
          leBytes 1 reason ++ leBytes 4 c.slot ++ leBytes 4 k)
        let s := setStore s (fun t => { takeSlot (dropSlot t c.member c.slot) m k with cycle := m })
        let s := setExtent s serial (fun e => { e with copies := lmod e.copies copy (fun _ =>
          { member := m, slot := k, retried := true }) })
        emits s (copyWrites s.store e m k)
      | none =>
        let s := jAppend s 0x05 (leBytes 8 serial ++ leBytes 1 copy ++ leBytes 1 reason)
        let s := setExtent s serial (fun e => { e with copies := lmod e.copies copy (fun c => { c with failed := true }) })
        let s := raise s 0x0A01 c.member serial
        settleExtent s serial

/-- A member is lost (R288). -/
def memberLost (s : State) (m reason : Nat) : State :=
  if (nth s.store.members m {}).state ≠ 1 then s else
  let s := jAppend s 0x09 (leBytes 1 m ++ leBytes 1 2)
  let s := raise s 0x0A02 m reason
  let s := setStore s (fun t => { t with members := lmod t.members m (fun x => { x with state := 2 }), degraded := true })
  let s := s.store.extents.foldl (fun s e =>
    if e.state = 1 then
      (e.copies.zipIdx).foldl (fun s c =>
        if c.1.member = m && !c.1.done then failCopy s e.serial c.2 3 else s) s
    else if e.state = 2 && e.copies.any (fun c => decide (c.member = m) && c.done) then
      if e.copies.any (fun c => decide (c.member ≠ m) && c.done &&
          decide ((nth s.store.members c.member {}).state = 1)) then s
      else
        let s := setExtent s e.serial (fun e => { e with state := 4 })
        damageExtent s e (fun _ => true) 3
    else s) s
  if (activeMembers s.store).isEmpty then setStore s (fun t => { t with state := 4 }) else s

/-! ### Freeing (R293, R297) -/

/-- Drops the extents whose records are all freed, and their slots. -/
def sweepExtents (s : State) : State :=
  let t := s.store
  let dead := t.extents.filter (fun e => decide (2 ≤ e.state) && decide (e.state ≠ 6) &&
    (extentRecs e).all (fun n => match findRec t n with
      | none => true
      | some r => decide (r.state = 4)))
  setStore s (fun t =>
    let t := dead.foldl (fun t e => e.copies.foldl (fun t c => dropSlot t c.member c.slot) t) t
    { t with extents := t.extents.filter (fun e => !(dead.map (·.serial)).contains e.serial) })

/-- Frees a range of records (FREE). -/
def freeRecs (s : State) (lo hi : Nat) : State :=
  let s := jAppend s 0x0A (leBytes 8 lo ++ leBytes 8 hi)
  let ns := (s.store.records.filter (fun r => decide (lo ≤ r.number) && decide (r.number ≤ hi) && decide (r.state ≠ 4))).map (·.number)
  let s := ns.foldl (fun s n => setRec s n (fun r => { r with state := 4 })) s
  let s := sweepExtents s
  setStore s (fun t => { t with full := t.full && decide (freeSlots t = 0) })

/-- RECYCLE (R293): frees the oldest SEALED or DAMAGED records that have ended, until a slot is free. -/
def recycle : Nat → State → State
  | 0, s => s
  | f + 1, s =>
    if (allocate s.store s.store.cycle []).isSome then s else
    match s.store.records.find? (fun r => (decide (r.state = 2) || decide (r.state = 3)) && r.ended) with
    | none => s
    | some r => recycle f (freeRecs s r.number r.number)

/-! ### Open extents (R281, R282) -/

def openExtent (t : Store) (u : Nat) : Option Extent := t.extents.find? (fun e => e.state = 0 && e.unit = u)

/-- Payload bytes of an extent. -/
def payloadBytes (e : Extent) : Nat := e.blocks.foldl (fun a b => if b.kind = 0 then a + b.data.length else a) 0

/-- The extent takes the unit's next play offsets (R512): the offset of its first payload byte. -/
def advancePlay (s : State) (e : Extent) : Nat × State :=
  (nth s.pair.play e.unit 0, { s with pair := { s.pair with play := lmod s.pair.play e.unit (· + payloadBytes e) } })

/-- Places a closed extent on the media: its copies are allocated and EXTENT_PENDING is journalled (R281 to R284); with
no slot free, R293. -/
def placeExtent (s : State) (e : Extent) : State :=
  let s := if par s 0x0A04 0 = 1 then recycle s.store.records.length s else s
  match allocate s.store s.store.cycle [] with
  | none => raiseLatched (setStore s (fun t => { t with full := true })) 0x0A05 0 0
  | some (m, k) =>
    let s := setStore s (fun t => { takeSlot t m k with cycle := m })
    let mir := if s.store.mirror then allocate s.store m [m] else none
    let s := match mir with
      | some (m2, k2) => setStore s (fun t => takeSlot t m2 k2)
      | none => if s.store.mirror then setStore s (fun t => { t with degraded := true }) else s
    let recs := extentRecs e
    let s := jAppend s 0x02 (leBytes 8 e.serial ++ leBytes 1 m ++ leBytes 1 (match mir with | some x => x.1 | none => 0xFF) ++
      leBytes 2 e.blocks.length ++ leBytes 4 k ++ leBytes 4 (match mir with | some x => x.2 | none => 0) ++ zeros 4 ++
      leBytes 8 (recs.head?.getD 0) ++ leBytes 8 (recs.getLast?.getD 0))
    setExtent s e.serial (fun e => { e with
      state := 1, jseq := s.store.jseq
      copies := { member := m, slot := k } :: (match mir with | some x => [{ member := x.1, slot := x.2 }] | none => []) })

/-- Closes a unit's open extent: it is placed on the media, or shadowed on an UNDERSTUDY. An extent that finds no slot
stays open (R293). -/
def closeExtent (s : State) (u : Nat) : State :=
  match openExtent s.store u with
  | none => s
  | some e =>
    if shadows s then
      let (at_, s) := advancePlay s e
      let ring := tgetD (nth s.caps u {}).extBytes e.serial 0
      setExtent { s with pair := { s.pair with
        shadow := s.pair.shadow ++ [{ serial := e.serial, unit := u, first := at_, bytes := payloadBytes e, ring }] } }
        e.serial (fun e => { e with state := 6 })
    else
      let s := placeExtent s e
      if (openExtent s.store u).isSome then s else (advancePlay s e).2

/-- Places a block of a unit in its open extent, opening one where it has none; a full extent is closed (R281). Answers
the serial. -/
def placeBlock (s : State) (u : Nat) (b : BlockRec) : Nat × State :=
  let s := match openExtent s.store u with
    | some _ => s
    | none => setStore s (fun t => { t with
        extents := t.extents ++ [{ serial := t.nextSerial, unit := u, state := 0 }], nextSerial := t.nextSerial + 1 })
  match openExtent s.store u with
  | none => (0, s)
  | some e =>
    let s := setExtent s e.serial (fun e => { e with blocks := e.blocks ++ [b] })
    let s := { s with caps := lmod s.caps u (fun c => { c with
      playedBytes := c.playedBytes + 4096, extBytes := tmod c.extBytes e.serial 0 (· + 4096) }) }
    let s := if b.poison then addDamage s b.record { serial := e.serial, first := b.index, count := 1, reason := 4 } else s
    (e.serial, if e.blocks.length + 1 = 16384 then closeExtent s u else s)

/-! ### Journal writes, checkpoints, seal -/

/-- A committed entry reaches the catalogue (R284, R286): a record sealed, a sealed one damaged, or freed. -/
def catalogueOf (s : State) (j : JEntry) : State :=
  let n := fld j.body 0 8
  match j.typ with
  | 0x08 => catalogueRec (setRec s n (fun r => if r.state = 3 then r else { r with state := 2 })) n
  | 0x06 => if ((findRec s.store n).map (·.sealed)).getD false then catalogueRec s n else s
  | 0x0A =>
    ((s.store.records.filter (fun r => decide (n ≤ r.number) && decide (r.number ≤ fld j.body 8 8) && decide (r.state = 4))).map (·.number)).foldl
      catalogueRec s
  | _ => s

/-- Commits the pending journal entries on every active member; extents whose EXTENT_PENDING is committed are written, and
what is committed enters the catalogue (R283 to R286). -/
def commitJournal (s : State) : State :=
  let t := s.store
  if t.jseq ≤ t.committed || (activeMembers t).isEmpty then s
  else
    let gs := (List.range ((t.jseq - 1) / 64 + 1)).filter (fun g => decide (t.committed / 64 ≤ g))
    let s := emits s ((activeMembers t).flatMap (fun m => gs.map (fun g => .nvmeWrite m (journalBlockOf (64 * g + 1)) (journalBlock t g))))
    let s := setStore s (fun t => { t with committed := t.jseq })
    let s := t.extents.foldl (fun s e =>
      if e.state = 1 && decide (t.committed < e.jseq) then e.copies.foldl (fun s c => issueCopy s e c) s else s) s
    (t.journal.filter (fun j => decide (t.committed < j.seq))).foldl catalogueOf s

/-- The writes of the map blocks that hold changed entries, on the active members. -/
def mapWrites (t : Store) : List Output :=
  (activeMembers t).flatMap (fun m =>
    (((t.touched.filter (fun x => x.1 = m)).map (fun x => mapBlockOf x.2)).eraseDups).map (fun b => .nvmeWrite m b (mapBlock t m b)))

/-- The writes of the superblock in force: on every active member, the copy whose turn it is. -/
def superWrites (t : Store) : List Output :=
  (activeMembers t).map (fun m => .nvmeWrite m (superCopy t.generation) (superblock t m))

/-- Takes a checkpoint (R275, R276, R284): the map is written, CHECKPOINT is journalled and the superblock updated. -/
def takeCheckpoint (s : State) (clean : Bool) : State :=
  if (activeMembers s.store).isEmpty then s else
  let s := commitJournal s
  let q := s.store.committed
  let s := emits s (mapWrites s.store)
  let s := commitJournal (jAppend s 0x0B (leBytes 8 q))
  let s := setStore s (fun t => { t with
    checkpoint := q, generation := t.generation + 1, clean, touched := []
    journal := t.journal.filter (fun j => decide ((q - 1) / 64 ≤ (j.seq - 1) / 64)) })
  emits s (superWrites s.store)

/-- Closes every open extent that holds a block. -/
def flushExtents (s : State) : State := (List.range 16).foldl closeExtent s

/-- An extent still open or PENDING. -/
def storeBusy (s : State) : Bool := s.store.extents.any (fun e => e.state ≤ 1)

/-- Completes every PENDING copy: the drives have answered. -/
def completePending (s : State) : State :=
  let s := commitJournal s
  s.store.extents.foldl (fun s e =>
    if e.state = 1 then
      settleExtent (setExtent s e.serial (fun e => { e with copies := e.copies.map (fun c =>
        if c.failed then c else { c with done := true }) })) e.serial
    else s) s

/-- R292: every played extent is written, a checkpoint is taken, CLEAN is set. -/
def sealStore (s : State) : State :=
  if s.store.state ≠ 2 then s else takeCheckpoint (completePending (flushExtents s)) true

/-- R106, step 5: played extents flushed and the journal sealed; what the drives have not written stays PENDING, and the
store is READ_ONLY until the next mount (R292). -/
def sealForSafe (s : State) : State :=
  if s.store.state ≠ 2 then s else
  let s := takeCheckpoint (flushExtents s) (!storeBusy (flushExtents s))
  setStore s (fun t => { t with state := 3 })

/-! ### Mount (R290, R291) -/

/-- A record opened and not sealed ends at its last valid block: its final header is written, with UNCLEAN (R290). Its last
ordinal stays all ones. DESIGN CHOICE, see assumption 66. -/
def endUnclean (s : State) (r : StoreRec) : State :=
  let bad := fun (b : BlockRec) => r.damage.any (fun d => decide (d.first ≤ b.index) && decide (b.index < d.first + d.count))
  let bs := (s.store.extents.flatMap (·.blocks)).filter (fun b => decide (b.record = r.number) && !bad b)
  let payload := bs.foldl (fun a b => if b.kind = 0 then a + b.data.length else a) 0
  let next := (bs.map (·.index + 1)).getLast?.getD 0
  let h := setBytes (setBytes (padTo 512 r.header) 12 (leBytes 4 ((fld r.header 12 4) ||| 0x4001))) 208 (leBytes 8 payload)
  let h := stampHeader (setBytes h 232 (leBytes 8 s.store.nextSerial)) 2 r.damage
  let (serial, s) := placeBlock s r.unit { record := r.number, index := next, kind := 1, final := true, data := h }
  let s := jAppend s 0x07 (leBytes 8 r.number ++ leBytes 8 (2 ^ 64 - 1) ++ leBytes 8 serial ++ leBytes 8 payload)
  let s := setRec s r.number (fun r => { r with ended := true, header := h })
  updateRec (closeExtent s r.unit) r.number

/-- The drive at a port, as a mount finds it; nothing at a port that is not fitted. -/
def portAt (s : State) (f : MountFacts) (p : Nat) : PortFacts :=
  let none_ : PortFacts := { present := false, failing := false, lba := 0, extras := false, capacity := 0, mdts := 0, superA := [], superB := [] }
  if fitted s.variant 0x0C p then nth f.ports p none_ else none_

/-- A drive that the mount reads superblocks from. -/
def superReads (p : PortFacts) : Bool := p.present && !p.failing && !driveUnsuited p

/-- The newest superblock of a drive. -/
def portSuper (p : PortFacts) : Option (List Byte) := if superReads p then newestSuper [p.superA, p.superB] else none

/-- The superblock that governs a mount: the highest valid generation of every port (R290). Where two stores are present it is
that of the higher generation. DESIGN CHOICE, see assumption 66. -/
def mountSuper (s : State) (f : MountFacts) : Option (List Byte) :=
  newestSuper ((List.range 8).filterMap (fun p => portSuper (portAt s f p)))

/-- The state of a port at a mount (Table 9-17): a drive whose store ID and index agree is active, one that the member table
names and that is absent or failing is lost; a drive of another store, or of none, is foreign. -/
def portState (s : State) (f : MountFacts) (sb : Option (List Byte)) (p : Nat) : Nat :=
  let x := portAt s f p
  let mine := match sb, portSuper x with
    | some a, some b => decide (fld a 16 16 = fld b 16 16) && decide (fld b 13 1 = p)
    | _, _ => false
  let named := match sb with
    | some a => decide (fld a (64 + 8 * p + 1) 1 ≠ 0)
    | none => false
  if mine then 1
  else if named && (!x.present || x.failing) then 2
  else if !x.present then 0
  else if driveUnsuited x then 3
  else 4

/-- The drives as a mount finds them. -/
def mountMembers (s : State) (f : MountFacts) : List Member :=
  (s.store.members.zipIdx).map (fun x =>
    let p := portAt s f x.2
    { x.1 with state := portState s f (mountSuper s f) x.2, slots := driveSlots p, mdts := p.mdts })

/-- A record as its header in the catalogue gives it. -/
def headerRec (h : List Byte) : StoreRec :=
  { number := fld h 16 8, unit := fld h 40 2 % 256, state := fld h 10 1, ended := true, header := h, source := fld h 42 2
    rate := fld h 96 8 / 1000, sealed := true, posted := true
    damage := (List.range (Nat.min 7 (fld h 240 4))).map (fun i =>
      { serial := 0, first := fld h (248 + 16 * i) 4, count := fld h (252 + 16 * i) 4, reason := fld h (256 + 16 * i) 1 }) }

/-- The content of the drives, where they do not stand as this device left them: what superblock and catalogue give. -/
def adoptStore (t : Store) (sb : List Byte) (f : MountFacts) : Store :=
  if t.formatted && decide (fld sb 16 16 = t.storeId) && decide (superGen sb = t.generation) then t
  else
    { t with
      storeId := fld sb 16 16, generation := superGen sb, formattedAt := fld sb 40 10, formatter := fld sb 56 8
      checkpoint := fld sb 128 8, jseq := fld sb 128 8, committed := fld sb 128 8, journal := []
      nextRecord := fld sb 144 8, nextSerial := fld sb 152 8, catTip := fld sb 160 8, catFill := fld sb 168 4, catBlock := []
      records := f.headers.map headerRec, catalogue := f.headers, extents := [], catExtents := [], touched := [] }

/-- The store that a superblock describes. -/
def readSuper (s : State) (sb : List Byte) (f : MountFacts) : State :=
  let key := fld sb 172 8
  setStore s (fun t =>
    let t := adoptStore t sb f
    { t with
      formatted := true, mirror := bit (fld sb 10 2) 0, encrypted := bit (fld sb 10 2) 1, keyId := key, keySlot := fld sb 180 1
      locked := bit (fld sb 10 2) 1 && !(s.sec.keys.contains key)
      degraded := (bit (fld sb 10 2) 0 && decide ((activeMembers t).length < 2)) || t.members.any (fun m => m.state = 2) })

/-- The fitted root ports leave their reset state (R538). -/
def releasePorts (s : State) : State :=
  if s.store.portsUp then s
  else setStore (emits s ((fittedList s.variant 0x0C).map (fun p => .nvReset p false))) (fun t => { t with portsUp := true })

/-- Mounts the store from what its drives hold. -/
def mountStore (s : State) (f : MountFacts) : State :=
  let s := releasePorts s
  let members := mountMembers s f
  let was := mountSuper s f
  let s := setStore s (fun t => { t with members })
  match was with
  | none =>
    let st := if members.all (fun m => m.state = 0) then 0 else 5
    raise (setStore s (fun t => { t with state := st, formatted := false, locked := false, full := false })) 0x0A04 0 st
  | some sb =>
    let s := readSuper s sb f
    let before := (s.store.records.filter (fun r => r.state = 3)).length
    let s := commitJournal s
    -- PENDING extents
    let s := s.store.extents.foldl (fun s e =>
      if e.state ≠ 1 then s else
      let got := ((f.extents.find? (fun x => x.serial = e.serial)).map (·.blocks)).getD []
      let hit := fun i => !blockValid s.store.storeId e.serial (nth got i [])
      let s := confirmExtent s e
      let s := setExtent s e.serial (fun e => { e with state := 2, copies := e.copies.map (fun c => { c with done := true }) })
      let s := damageExtent s e hit 5
      (extentRecs e).foldl updateRec s) s
    -- records not sealed
    let s := if (activeMembers s.store).isEmpty then s
      else (s.store.records.filter (fun r => !r.ended && r.state ≠ 4)).foldl endUnclean s
    -- R291: ranges with reason 3 that are valid again
    let s := s.store.records.foldl (fun s r =>
      let keep := r.damage.filter (fun d => !(d.reason = 3 && f.recovered.contains (r.number, d.first)))
      if keep.length = r.damage.length then s else
      let s := setRec s r.number (fun r => { r with damage := keep, state := if keep.isEmpty && r.sealed then 2 else r.state })
      catalogueRec s r.number) s
    let s := s.store.extents.foldl (fun s e =>
      if e.state = 4 && e.copies.any (fun c => decide ((nth s.store.members c.member {}).state = 1)) then
        setExtent s e.serial (fun e => { e with state := 2 }) else s) s
    let st := if (activeMembers s.store).isEmpty then 4 else 2
    let s := setStore s (fun t => { t with state := st })
    let s := takeCheckpoint (completePending s) false
    let after := (s.store.records.filter (fun r => r.state = 3)).length
    raise s 0x0A04 0 (st + 8 * b2n (!bit (fld sb 10 2) 2) + 65536 * (after - before))

/-- What a reset leaves of the store: what was in the wings is gone; the drives keep the rest. -/
def storeReset (s : State) : Store :=
  let t := s.store
  { t with state := 0, locked := false, full := false, degraded := false, portsUp := false,
           extents := t.extents.filter (fun e => e.state ≠ 0 && e.state ≠ 6),
           journal := t.journal.filter (fun j => j.seq ≤ t.committed), jseq := t.committed }

/-! ### Commands (R294 to R297) -/

/-- A live `STORE_FORMAT` holds the store (Table 2-16). -/
def storeHeld (s : State) : Option OpState := heldBy s [0x0A40]

def specStoreFormat : CmdSpec :=
  { opcode := 0x0A40, modes := [.idle], starts := true,
    len := fun p => decide (p.length = 8),
    absent := fun s _ p => (setBits 8 (fld p 0 1)).any (fun m => !fitted s.variant 0x0C m),
    badState := fun s _ p => bit (fld p 1 1) 1 && decide (fld p 2 1 < 4) && decide (nth s.sec.keys (fld p 2 1) 0 = 0),
    badParam := fun s _ p _ =>
      let ms := setBits 8 (fld p 0 1)
      ms.isEmpty || ms.any (fun m => [0, 2, 3].contains (nth s.store.members m {}).state) ||
      decide (4 ≤ fld p 1 1) || (bit (fld p 1 1) 0 && decide (ms.length < 2)) ||
      (if bit (fld p 1 1) 1 then decide (4 ≤ fld p 2 1) else decide (fld p 2 1 ≠ 0)) || !zeroBytes p 3 5,
    held := fun s _ _ => heldBy s [0x0A40, 0x0A41, 0x0A42] }

/-- The format starts by invalidating every superblock: the former content is unreadable. -/
def runStoreFormat (s : State) (p : Packet) (_ : Nat) (pl : List Byte) (_ : Option Nat) : Ran :=
  let ms := setBits 8 (fld pl 0 1)
  let (h, s) := startOp s 0x0A40 0 p.tag.toNat ms.length { units := ms, args := [fld pl 0 1, fld pl 1 1, fld pl 2 1] }
  let s := emits s (ms.map (fun m => .nvmeZero m 0 2))
  let s := setStore s (fun t => { t with state := 5, formatted := false, records := [], extents := [], catalogue := [],
                                         journal := [], jseq := 0, committed := 0, full := false, locked := false,
                                         catTip := 0, catFill := 0, catBlock := [], catExtents := [], touched := []
                                         members := t.members.map (fun m => { m with used := [] }) })
  (stACCEPTED, leBytes 4 h, s)

/-- Steps 2 and 3 of a format on one member: its data area is deallocated, its journal and map are zeroed (R294). -/
def formatMember (s : State) (m : Nat) : State :=
  let n := (nth s.store.members m {}).slots
  emits s [.nvmeDeallocate m 16384 (16384 * n), .nvmeZero m 2 16382]

/-- The end of a format: the superblocks are written (R294). Table 2-16: reset, power loss or cancellation of a format leaves
the store unformatted. -/
def formatDone (s : State) (o : LongOp) : State :=
  let ms := setBits 8 (nth o.work.args 0 0)
  let fl := nth o.work.args 1 0
  let (id, s) := takeFree s
  let (x, s) := takeFree s
  let now := if timeValid s then x % 2 ^ 80 else 0
  let s := setStore s (fun t => { t with
    formatted := true, mirror := bit fl 0, encrypted := bit fl 1, storeId := id % 2 ^ 128,
    keyId := if bit fl 1 then nth s.sec.keys (nth o.work.args 2 0) 0 else 0, keySlot := nth o.work.args 2 0
    formattedAt := now, formatter := s.serial,
    generation := 1, clean := true, checkpoint := 1, nextRecord := 1, nextSerial := 1, cycle := 7, state := 2, degraded := false,
    members := (t.members.zipIdx).map (fun m =>
      if ms.contains m.2 then { m.1 with state := 1, used := [] }
      else if m.1.state = 1 then { m.1 with state := 4 } else m.1) })
  emits s (superWrites s.store)

def execStoreFormat (p : Packet) (s : State) : Host.Outcome State Fault Refusal :=
  .next (runPacket specStoreFormat runStoreFormat p s)

def specStoreMount : CmdSpec := { opcode := 0x0A50, modes := [.idle], held := fun s _ _ => heldBy s [0x0A40, 0x0A41, 0x0A42] }

def runStoreMount (f : MountFacts) (s : State) (_ : Packet) (_ : Nat) (_ : List Byte) (_ : Option Nat) : Ran :=
  (stOK, [], mountStore (setStore s (fun t => { t with state := 1 })) f)

def execStoreMount (p : Packet) (f : MountFacts) (s : State) : Host.Outcome State Fault Refusal :=
  .next (runPacket specStoreMount (runStoreMount f) p s)

def specStoreUnmount : CmdSpec :=
  { opcode := 0x0A51, modes := [.idle, .analyse],
    held := fun s _ _ => heldBy s [0x0A40, 0x0A41, 0x0A42] }

def runStoreUnmount (s : State) (_ : Packet) (_ : Nat) (_ : List Byte) (_ : Option Nat) : Ran :=
  (stOK, [], setStore (sealStore s) (fun t => { t with state := 0 }))

def execStoreUnmount (p : Packet) (s : State) : Host.Outcome State Fault Refusal :=
  .next (runPacket specStoreUnmount runStoreUnmount p s)

def specStoreList : CmdSpec :=
  { opcode := 0x0A52, len := fun p => decide (p.length = 16),
    badParam := fun _ _ p _ => decide (7 < fld p 8 1) || !zeroBytes p 9 7,
    held := fun s _ _ => storeHeld s }

/-- The newest catalogue header of each record, in record order. -/
def runStoreList (s : State) (_ : Packet) (_ : Nat) (p : List Byte) (_ : Option Nat) : Ran :=
  let rs := (s.store.records.filter (fun r => decide (fld p 0 8 ≤ r.number) && r.sealed)).take (fld p 8 1)
  (stOK, (rs.map (fun r => stampHeader r.header r.state r.damage)).flatten, s)

def execStoreList (p : Packet) (s : State) : Host.Outcome State Fault Refusal :=
  .next (runPacket specStoreList runStoreList p s)

def specStoreDelete : CmdSpec :=
  { opcode := 0x0A53, modes := [.idle, .analyse, .record], len := fun p => decide (p.length = 16),
    badState := fun s _ p => s.store.records.any (fun r => decide (fld p 0 8 ≤ r.number) && decide (r.number ≤ fld p 8 8) &&
      decide (r.state ≤ 1)) || s.store.locked || (decide (s.store.state ≠ 2) && s.store.records.any (fun r =>
        decide (fld p 0 8 ≤ r.number) && decide (r.number ≤ fld p 8 8))),
    badParam := fun _ _ p _ => decide (fld p 8 8 < fld p 0 8),
    held := fun s _ p =>
      match heldBy s [0x0A40] with
      | some x => some x
      | none =>
        -- an export holds its records read-only; a replay holds its record
        let busy := (liveOps s).filter (fun o =>
          (decide (o.opcode = 0x0A41) && decide (nth o.work.args 0 0 ≤ fld p 8 8) && decide (fld p 0 8 ≤ nth o.work.args 1 0)) ||
          (decide (o.opcode = 0x0A42) && decide (fld p 0 8 ≤ nth o.work.args 0 0) && decide (nth o.work.args 0 0 ≤ fld p 8 8)))
        match busy with
        | [] => none
        | _ => if busy.any (fun o => o.state ≠ .suspended) then some .running else some .suspended }

def runStoreDelete (s : State) (_ : Packet) (_ : Nat) (p : List Byte) (_ : Option Nat) : Ran :=
  (stOK, [], freeRecs s (fld p 0 8) (fld p 8 8))

def execStoreDelete (p : Packet) (s : State) : Host.Outcome State Fault Refusal :=
  .next (runPacket specStoreDelete runStoreDelete p s)

/-! ### Rows of the feeders -/

/-- EXTENT_CLOSE: a unit's open extent closes (R281). -/
def execExtentClose (u : Fin 16) (s : State) : Host.Outcome State Fault Refusal := .next (closeExtent s u)

/-- EXTENT_WRITE_COMPLETION: the write of a copy completes (R283, R285). A completion after its copy has failed or been
moved is ignored (R287). -/
def execExtentWriteCompletion (serial : Nat) (copy : Fin 2) (s : State) : Host.Outcome State Fault Refusal :=
  match findExtent s.store serial with
  | none => .next s
  | some e =>
    if e.state ≠ 1 || s.store.committed < e.jseq || e.copies.length ≤ copy.val then .next s
    else
      let s := setExtent s serial (fun e => { e with copies := lmod e.copies copy (fun c => if c.failed then c else { c with done := true }) })
      .next (settleExtent s serial)

/-- STORE_WRITE_FAILED: a copy fails; three failures in 10 s lose its member (R287). -/
def execStoreWriteFailed (serial : Nat) (copy : Fin 2) (reason : Fin 4) (thirdIn10s : Bool) (s : State) :
    Host.Outcome State Fault Refusal :=
  match findExtent s.store serial with
  | none => .next s
  | some e =>
    let m := (nth e.copies copy { member := 8, slot := 0 }).member
    let s := failCopy s serial copy reason
    .next (if thirdIn10s then memberLost s m reason else s)

/-- STORE_MEMBER_LOST: a member's link goes down, its controller fails, or it is removed (R288). -/
def execStoreMemberLost (m : Fin 8) (s : State) : Host.Outcome State Fault Refusal := .next (memberLost s m 3)

/-- JOURNAL_WRITE (R283); a checkpoint follows where the journal is half full (R284). -/
def execJournalWrite (s : State) : Host.Outcome State Fault Refusal :=
  let t := commitJournal s
  .next (if t.store.state = 2 && decide (t.store.checkpoint + 64 * 8176 / 2 ≤ t.store.jseq) then takeCheckpoint t false else t)

/-- CHECKPOINT (R284). -/
def execCheckpoint (s : State) : Host.Outcome State Fault Refusal :=
  .next (if s.store.state = 2 then takeCheckpoint s false else s)

end Sys2Proof.Machine
end

