-- ==== Sys2Proof/Machine/Plls.lean ====
section
/-! DEFINITION. The PLLs: dividers, VCO frequencies, the settings in force, and which of them are powered (R146 to R148,
R157, R160). -/
namespace Sys2Proof.Machine

/-- Changes the clock unit. Outside holdover `clk.holdover_time` reads zero (R156). -/
def setClk (s : State) (f : ClockUnit → ClockUnit) : State :=
  let c := f s.clk
  { s with clk := if holdoverOf c then c else { c with holdMs := 0 } }

/-! ### The divider and the VCO (R146, R147) -/

/-- The divider code of Table 5-2 for a converter rate. -/
def divCode (r : Nat) : Nat :=
  if 8000000000 ≤ r then 0
  else if 16000000000 ≤ 3 * r then 1
  else if 4000000000 ≤ r then 2
  else if 8000000000 ≤ 3 * r then 3
  else 4

/-- 2 D of a divider code. -/
def divTwice (c : Nat) : Nat := nth [2, 3, 4, 6, 8] c 2

/-- The VCO frequency in mHz that a PLL's configuration asks for. CH1 and CH3 share the PLL of CH0 and CH2, whose rates
set it. -/
def vcoWanted (s : State) (p : Nat) : Nat :=
  match p with
  | 0 => par s 0x0401 0 * 1000 * divTwice (divCode (par s 0x0401 0)) / 2
  | 1 => par s 0x0401 2 * 1000 * divTwice (divCode (par s 0x0401 2)) / 2
  | 2 => 10000000000000
  | _ => 11200000000000

/-- `clk.vco_freq` (Table 5-5). -/
def vcoMhz (s : State) (p : Nat) : Nat := if s.md.mode = .boot then 0 else vcoWanted s p

/-- The frequency of the reference in use, in Hz: REFIN's nominal one, or 100 MHz of XO; none without a reference. DEDUCED,
see assumption 67: the nominal frequency, since m = 2 × f_ref makes half-hertz multiples exact. -/
def refHz (c : ClockUnit) : Nat :=
  match c.source with
  | 1 => nth [0, 10000000, 25000000, 100000000] c.refinFreq 0
  | 2 => 100000000
  | _ => 0

/-- m of R146. -/
def pllM (c : ClockUnit) : Nat := 2 * refHz c

/-- n and f of R146 for a VCO frequency in mHz on a reference. -/
def pllRatio (mhz ref : Nat) : Nat × Nat := (mhz / (1000 * ref), 2 * (mhz % (1000 * ref)) / 1000)

/-- The settings of a PLL transfer from its buffer (R157); without a reference they stay. -/
def programPll (s : State) (p : Nat) (x : Pll) : Pll :=
  if refHz s.clk = 0 then x
  else { x with n := (pllRatio (vcoWanted s p) (refHz s.clk)).1, f := (pllRatio (vcoWanted s p) (refHz s.clk)).2 }

/-- The stage manager computes n and f anew: for a new reference (R149), and at `START` (R157). -/
def programPlls (s : State) : State :=
  setClk s (fun c => { c with plls := (c.plls.zipIdx).map (fun x => programPll s x.2 x.1) })

/-! ### Power (R148) -/

/-- Powers PLLs up or down: powering down clears LOCK and COAST and is no loss of lock. -/
def powerPlls (s : State) (on : Nat → Bool) : State :=
  setClk s (fun c => { c with plls := (c.plls.zipIdx).map (fun x =>
    if on x.2 = x.1.powered then x.1
    else programPll s x.2 { x.1 with powered := on x.2, lock := false, started := false, coast := false, good := 0, bad := 0, diff := 0 }) })

/-- The channels that live `CALIBRATE_CONVERTERS` operations name. -/
def calHolds (s : State) : List Nat :=
  (s.ops.filter (fun o => decide (o.opcode = 0x0440) && opLive o)).flatMap (·.work.args)

/-- A self-test that needs the converters' PLLs is in progress. DESIGN CHOICE, see assumption 65: the manual does not say
which tests need a PLL; CONDITION, the test of the conditioners, is taken to need PLL0 and PLL1. -/
def testNeedsPlls (s : State) : Bool :=
  s.ops.any (fun o => decide (o.opcode = 0x1340) && opLive o && decide (o.work.units.head? = some 0))

/-- A PLL is powered in a mode: PLL2 and PLL3 in every mode but DORMANT; PLL0 and PLL1 in ANALYSE, RECORD and WATCH, and
while a calibration or a test needs them. -/
def pllWanted (s : State) (m : Mode) (p : Nat) : Bool :=
  m ≠ .dormant &&
  (decide (2 ≤ p) || m = .analyse || m = .record || m = .watch || (calHolds s).any (fun c => decide (c / 2 = p)) ||
    (m = .service && testNeedsPlls s))

/-- The PLLs follow a mode and the operations that need them. -/
def pllsFollow (s : State) (m : Mode) : State := powerPlls s (pllWanted s m)

/-- Every PLL that clocks a running channel has declared lock, so that its outputs have started (R160). -/
def clocksStarted (s : State) : Bool :=
  (List.range 4).all (fun c => !(chan s c).running || (nth s.clk.plls (c / 2) {}).started)

/-! ### Phase (R158, R159) -/

/-- The phase that a converter's clock output is set to, in steps: `clk.phase`, or, for CH1 while paired, half a converter
period after CH0's. -/
def phaseSet (s : State) (c : Nat) : Int :=
  if paired s && decide (c = 1) then parI s 0x0507 0 + 256 * (divTwice (divCode (par s 0x0401 0)) : Int) else parI s 0x0507 c

/-- One cycle of a converter's clock output: its phase moves one step towards the setting. -/
def phaseStep (s : State) (c : Nat) : State :=
  if replaying s then s else
  let wanted := phaseSet s c
  setChan s c (fun ch => { ch with clkPhase :=
    if ch.clkPhase < wanted then ch.clkPhase + 1 else if wanted < ch.clkPhase then ch.clkPhase - 1 else ch.clkPhase })

end Sys2Proof.Machine
end

