-- ==== Sys2Proof/Machine/Conditioner.lean ====
section
/-! DEFINITION. The main converters' sample path: flags, background calibration, loss of signal, and the channel
conditioner (chapter 4). -/
namespace Sys2Proof.Machine

/-- Division rounding half up: the spec's "round half up" of a quotient by a positive number. -/
def divHalfUp (x : Int) (d : Nat) : Int := (2 * x + (d : Int)) / (2 * (d : Int))

/-- The domain a converter's samples are numbered in: CH0's while CH0 and CH1 are paired (R30). -/
def domainOf (s : State) (c : Nat) : Nat := if paired s && decide (c = 1) then 0 else c

/-- The ordinal of a converter's next sample (R28, R30). -/
def sampleOrd (s : State) (c : Nat) : Nat :=
  if paired s && decide (c < 2) then 2 * (chan s c).count + c else (chan s c).count

/-- k[f] × 100 of Table 4-4. -/
def scaleK (fixed : Bool) (f : Nat) : Nat :=
  if fixed then nth [100, 71, 50, 35] f 100 else 100

/-- v of R130 before saturation: off in 2^-4 LSB, gain in 2^-15 added to 1.0. -/
def condV (code off gain : Int) (k100 : Nat) : Int :=
  divHalfUp ((code * 64 - off * 4) * (32768 + gain) * (k100 : Int)) (32768 * 100)

/-- w of R130 before saturation: skew in 2^-24 sample periods. -/
def condW (v prev next skew : Int) : Int := v + divHalfUp (skew * (next - prev)) (2 ^ 25)

/-- m of R130: the mixer by the quarter rate, zone 1 or 2. -/
def condRot (zone n : Nat) (w : Int) : Int × Int :=
  match n % 4 with
  | 0 => (w, 0)
  | 1 => if zone = 2 then (0, w) else (0, -w)
  | 2 => (-w, 0)
  | _ => if zone = 2 then (0, -w) else (0, w)

/-- The converters of a domain (R30). -/
def converters (s : State) (d : Nat) : List Nat := if paired s && decide (d = 0) then [0, 1] else [d]

/-- The sub-converter that takes an ordinal: the sample's number of its converter, modulo 16 (R130). -/
def subOf (s : State) (c n : Nat) : Nat := (if paired s && decide (c < 2) then n / 2 else n) % 16

/-- A sample that the conditioner reads below ordinal 0 (R132): v is zero, and no skew is corrected there. DESIGN CHOICE, see
assumption 65: the manual does not say at which stage inputs below ordinal 0 are taken as zero. -/
def belowZero : RawSample := { v := 0, skew := 0, stl := true }

/-- w of the sample `i` places behind the newest, and whether it saturates. Its neighbours are those of the domain's stream,
and the skew counts in that stream's sample periods: while paired, the other converter's samples at 20 GS/s. DESIGN CHOICE,
see assumption 65: the manual does not say which neighbours the paired correction reads. -/
def wAt (h : List RawSample) (i : Nat) : Int × Bool :=
  let a := nth h i belowZero
  let w := condW a.v (nth h (i + 1) belowZero).v (nth h (i - 1) belowZero).v a.skew
  (satS 18 w, satHit 18 w)

/-- A coefficient of the file as its 18 bits hold it (R178). -/
def coef18 (v : Int) : Int := sgn 18 (uns 18 v)

/-- A half-band tap: those at even offsets from the centre are zero (R130, Table 6-1). -/
def hbTap (v off : Int) : Int := if off ≠ 0 && off % 2 = 0 then 0 else coef18 v

/-- Output y[k] of R130 from the 49 samples of its input span and one neighbour on each side, newest first: sample `i` of the
list has ordinal 2k + 25 - i. A stage that saturates at a sample of the span sets SAT (R134). Paired, each w passes the
equaliser (R139). -/
def condOut (pairedNow : Bool) (zone k : Nat) (h : List RawSample) : FlagIQ :=
  let ws := (List.range 49).map (fun i => wAt h (i + 1))          -- ordinals 2k+24 down to 2k-24
  let es := if pairedNow then
      (List.range 47).map (fun i => Config.equalise ((ws.drop (i + 1)).map (·.1)))
    else (ws.drop 1).map (·.1)
  let sum := (List.range 47).foldl (fun (acc : Int × Int) i =>
      let m := condRot zone (2 * k + 24 + 3 * (i + 1)) (nth es i 0)          -- ordinal 2k + 23 - i, modulo 4
      let hb := hbTap (Config.hb47 ((i : Int) - 23)) ((i : Int) - 23)
      (acc.1 + hb * m.1, acc.2 + hb * m.2)) (0, 0)
  let d := 2 ^ Config.coefPoint
  let yi := divHalfUp (2 * sum.1) d
  let yq := divHalfUp (2 * sum.2) d
  let span := (h.drop 1).take 49 ++ List.replicate (50 - h.length) belowZero
  { i := satS 18 yi, q := satS 18 yq,
    ovr := span.any (·.ovr), stl := span.any (·.stl), gap := span.any (·.gap),
    sat := satHit 18 yi || satHit 18 yq || ws.any (·.2) || span.any (·.sat) }

/-! ### Background calibration (R125, R127) -/

/-- A coefficient set as the numbers of `Config.bgcalUpdate`. -/
def coefNums (c : CoefSet) : List Int := c.offsets.flatten ++ c.gains.flatten ++ c.skews ++ [c.skewPair]

/-- The set that the numbers spell. -/
def numsCoef (l : List Int) (c : CoefSet) : CoefSet :=
  { offsets := (List.range 4).map (fun f => (l.drop (16 * f)).take 16),
    gains := (List.range 4).map (fun f => (l.drop (64 + 16 * f)).take 16),
    skews := (l.drop 128).take 16,
    skewPair := nth l 144 0,
    pairValid := c.pairValid }

/-- The settings that a block updates: at least 2^20 usable samples, and power not below -40 dBFS (R127), where a
full-scale sine is 0 dBFS (R131). -/
def bgSettings (ch : Channel) : List Nat :=
  (List.range 4).filter (fun f =>
    decide (2 ^ 20 ≤ nth ch.usable f 0) &&
    decide (2 ^ 21 * nth ch.usable f 0 ≤ nth ch.power f 0 * 10000))

/-- Ends the statistics of a block whose last ordinal is `n`: its update takes effect two blocks after its start. -/
def bgBlockEnd (ch : Channel) (n : Nat) : Channel :=
  let b := n / 2 ^ 26
  let upd := bgSettings ch
  { ch with updates := if upd.isEmpty then ch.updates else ch.updates ++ [((b + 2) * 2 ^ 26, ch.stats, upd)],
            stats := 0, usable := [0, 0, 0, 0], power := [0, 0, 0, 0] }

/-- Applies the updates due at or below ordinal `n` (R125), and clears the stale counts of their settings (R127). -/
def bgApply (ch : Channel) (n : Nat) : Channel :=
  (ch.updates.filter (fun u => u.1 ≤ n)).foldl (fun ch u =>
    let cnt := (List.range 4).map (fun f => if u.2.2.contains f then 0 else nth ch.staleCnt f 0)
    { ch with coef := numsCoef (Config.bgcalUpdate (coefNums ch.coef) u.2.1 u.2.2) ch.coef,
              staleCnt := cnt,
              stale := cnt.any (fun x => 2 ^ 30 ≤ x) })
    { ch with updates := ch.updates.filter (fun u => n < u.1) }

/-! ### Loss of signal (R142) -/

/-- The mean square of a window's codes is below a threshold of 0.1 dB relative to 2^22, the threshold negative or up to
a few dB positive: sum / 2^18 < 2^22 × 10^(thr / 100). -/
def losBelow (sum : Nat) (thr : Int) : Bool :=
  if thr ≤ 0 then decide (sum ^ 100 * 10 ^ thr.natAbs < 2 ^ 4000)
  else decide (sum ^ 100 < 2 ^ 4000 * 10 ^ thr.natAbs)

/-- The end of a window whose last sample is number `k` of its converter. -/
def losWindow (ch : Channel) (thrNext : Int) (k : Nat) (toOrd : Nat → Nat) : Channel :=
  let low := losBelow ch.losSum ch.losThr
  let high := !losBelow ch.losSum (ch.losThr + 30)
  let ll := if low then ch.losLow + 1 else 0
  let lh := if high then ch.losHigh + 1 else 0
  let now := match ch.losDue with
    | some (d, _) => d
    | none => ch.los
  let first := toOrd (k + 1 - 4 * 2 ^ 18)
  let due := if !now && decide (ll = 4) then some (true, first)
    else if now && decide (lh = 4) then some (false, first) else ch.losDue
  { ch with losCount := 0, losSum := 0, losThr := thrNext,
            losLow := if ll = 4 then 0 else ll, losHigh := if lh = 4 then 0 else lh, losDue := due }

/-! ### One sample (R122 to R142) -/

/-- The STL of a sample word: a range-settling window (R136), or the conditioner's start-up span, ordinals 0 to 46. -/
def rawStl (s : State) (c n : Nat) : Bool :=
  decide (n < (chan s (domainOf s c)).stlEnd) || decide (n < 47)

/-- The background calibration of a converter runs. DESIGN CHOICE, see assumption 65: while paired each converter's own
`conv.bg_cal` counts; the manual says which converter's setting governs for `conv.full_scale` alone. -/
def bgOn (s : State) (c : Nat) : Bool := decide (par s 0x0407 c = 1) && !replaying s

/-- A usable code enters the statistics of its converter, and, while paired, those of the other (R125, R140). -/
def bgTake (s : State) (c n : Nat) (code : Int) : State :=
  let d := domainOf s c
  let f := (chan s d).fsInForce
  (converters s d).foldl (fun s k =>
    if !bgOn s k then s else
    setChan s k (fun ch =>
      let ch := { ch with stats := Config.bgGather ch.stats (decide (k ≠ c)) f (subOf s c n) code }
      if k = c then { ch with usable := lmod ch.usable f (· + 1), power := lmod ch.power f (· + (code * code).toNat) } else ch)) s

/-- An ordinal passes at a converter of its domain: the setting in force at it is counted (R127), and the last ordinal of a
block ends its statistics (R125). -/
def bgOrdinal (s : State) (c d n : Nat) : State :=
  if !bgOn s c then s else
  let f := (chan s d).fsInForce
  setChan s c (fun ch =>
    let cnt := nth ch.staleCnt f 0 + 1
    let ch := { ch with
      staleCnt := lmod ch.staleCnt f (fun _ => cnt), stale := ch.stale || decide (2 ^ 30 ≤ cnt)
      staleDue := if cnt = 2 ^ 30 then ch.staleDue ++ [(f, n)] else ch.staleDue }
    if (n + 1) % 2 ^ 26 = 0 then bgBlockEnd ch n else ch)

/-- The next sample of a converter in its window of loss detection; a lost one counts as zero. DESIGN CHOICE, see assumption
65: while paired each converter's own `conv.los_threshold` counts, and what a lost sample adds to its window the manual
does not say. -/
def losTake (s : State) (c : Nat) (code : Int) : State :=
  let toOrd := fun k => if paired s && decide (c < 2) then 2 * k + c else k
  let thr := parI s 0x0409 c
  setChan s c (fun ch =>
    let k := ch.count
    let ch := { ch with losCount := ch.losCount + 1, losSum := ch.losSum + (code * code).toNat,
                        losThr := if ch.losCount = 0 then thr else ch.losThr }
    let ch := if ch.losCount = 2 ^ 18 then losWindow ch thr k toOrd else ch
    { ch with count := k + 1 })

/-- The converter's own bookkeeping for ordinal `n`: statistics of a usable code, staleness, blocks, loss of signal, and the
phase of its clock. `code` is none for a lost sample. -/
def converterWord (s : State) (c n : Nat) (code : Option Int) (usable : Bool) : State :=
  let d := domainOf s c
  let s := match code with
    | some v => if usable then bgTake s c n v else s
    | none => s
  let s := (converters s d).foldl (fun s k => bgOrdinal s k d n) s
  losTake (phaseStep s c) c (code.getD 0)

/-- v of one sample with its flags, by the coefficients and the range in force (R130). DESIGN CHOICE, see assumption 65: while
paired CH0's `conv.scale` governs both converters, as its `conv.full_scale` does (R141). -/
def condSample (s : State) (c n : Nat) (code : Int) (ovr gap : Bool) : RawSample :=
  let d := domainOf s c
  let f := (chan s d).fsInForce
  let sub := subOf s c n
  let co := (chan s c).coef
  let v := condV code (nth (nth co.offsets f []) sub 0) (nth (nth co.gains f []) sub 0)
    (scaleK (decide (par s 0x0405 d = 1)) f)
  { v := satS 18 v, sat := satHit 18 v,
    skew := nth co.skews sub 0 * 256 + (if paired s && decide (c = 1) then co.skewPair else 0),
    ovr, stl := decide (n < (chan s d).stlEnd), gap }

/-- Takes one sample into the conditioner of its domain; the conditioned output that it completes, if any: the output k
with 2k + 25 = n, whose span ends at 2k + 24 (R132) and whose skew correction there reads n. DESIGN CHOICE, see assumption
65: while paired CH0's `conv.nyquist_zone` governs. -/
def conditionOne (s : State) (c n : Nat) (x : RawSample) : State × Option (Nat × FlagIQ) :=
  let d := domainOf s c
  let s := setChan s d (fun ch => { ch with hist := (x :: ch.hist).take 51 })
  if n < 25 || n % 2 = 0 then (s, none)
  else
    let k := (n - 25) / 2
    (s, some (k, condOut (paired s && decide (d = 0)) (par s 0x0406 d) k (chan s d).hist))

/-- The conditioned output whose span ends with the last sample of a domain: there is no sample beyond it to correct its
skew, which no tap reads. -/
def conditionLast (s : State) (d : Nat) : Option (Nat × FlagIQ) :=
  let n := ordNext s d
  let h := (chan s d).hist
  if n < 25 || n % 2 = 0 then none
  else
    let k := (n - 25) / 2
    some (k, condOut (paired s && decide (d = 0)) (par s 0x0406 d) k (nth h 1 belowZero :: h))

/-- OVR of a sample (R123): counted in the channel's domain, and the latched event. -/
def noteOvr (s : State) (c n : Nat) : State :=
  let d := domainOf s c
  let s := setChan s d (fun ch => { ch with ovrSeen := true, ovrCount := ch.ovrCount + 1 })
  raiseLatched s 0x0402 d (n % 2 ^ 32) (some (d, n))

/-! ### Background events -/

/-- CONV_LOS: a declaration or a clearing that the windows have found. -/
def execConvLos (c : Fin 4) (s : State) : Host.Outcome State Fault Refusal :=
  match (chan s c).losDue with
  | none => .next s
  | some (on, n) =>
    let s := setChan s c (fun ch => { ch with los := on, losDue := none })
    .next (raise s 0x0401 c (b2n on) (some (domainOf s c, n)))

/-- CONV_CAL_STALE: the count of a setting has reached 2^30 (R127). -/
def execConvCalStale (c fs : Fin 4) (s : State) : Host.Outcome State Fault Refusal :=
  match (chan s c).staleDue.find? (fun d => d.1 = fs.val) with
  | none => .next s
  | some (f, n) =>
    let s := setChan s c (fun ch => { ch with staleDue := ch.staleDue.filter (fun d => d.1 ≠ f) })
    .next (raiseLatched s 0x0403 (domainOf s c) f (some (domainOf s c, n)))

/-! ### Coefficient commands (R126, R128, R145) -/

/-- A coefficient set as Table 4-7 lays it out. -/
def coefBytes (isCh1 : Bool) (c : CoefSet) : List Byte :=
  leBytes 2 1 ++ leBytes 2 (b2n c.pairValid) ++ leInt 4 (if isCh1 then c.skewPair else 0) ++
  ((List.range 4).map (fun f =>
    ((nth c.offsets f []).map (leInt 2)).flatten ++ ((nth c.gains f []).map (leInt 2)).flatten ++ zeros 30)).flatten ++
  (c.skews.map (leInt 2)).flatten

/-- `n` signed 16-bit fields from an offset. -/
def ints16 (p : List Byte) (off n : Nat) : List Int := (List.range n).map (fun i => sgn 16 (fld p (off + 2 * i) 2))

/-- The set that a block of Table 4-7 spells. -/
def bytesCoef (p : List Byte) : CoefSet :=
  { offsets := (List.range 4).map (fun f => ints16 p (8 + 94 * f) 16),
    gains := (List.range 4).map (fun f => ints16 p (40 + 94 * f) 16),
    skews := ints16 p 384 16,
    skewPair := sgn 32 (fld p 4 4),
    pairValid := decide (fld p 2 2 = 1) }

/-- The reserved fields and the version of a block of Table 4-7. -/
def coefBlockBad (inst : Nat) (p : List Byte) : Bool :=
  decide (fld p 0 2 ≠ 1) || decide (1 < fld p 2 2) || (decide (inst ≠ 1) && decide (fld p 4 4 ≠ 0)) ||
  (List.range 4).any (fun f => !zeroBytes p (72 + 94 * f) 30)

def specConvCalRead : CmdSpec := { opcode := 0x0410, inst := .unit 0x01 }

def runConvCalRead (s : State) (_ : Packet) (i : Nat) (_ : List Byte) (_ : Option Nat) : Ran :=
  (stOK, coefBytes (decide (i = 1)) (chan s i).coef, s)

/-- CONV_CAL_READ (R145): the set in force at the samples taken so far. DEDUCED, see assumption 67: only cue sheets and capture
units rehearse, so what a converter has taken is played. -/
def execConvCalRead (p : Packet) (s : State) : Host.Outcome State Fault Refusal :=
  .next (runPacket specConvCalRead runConvCalRead p s)

/-- A live calibration holds one of the channels (R129). -/
def calHeld (s : State) (cs : List Nat) : Option OpState :=
  if cs.any (fun c => (calHolds s).contains c) then heldBy s [0x0440] else none

def specConvCalLoad : CmdSpec :=
  { opcode := 0x0411, inst := .unit 0x01, modes := [.idle, .analyse, .record, .service],
    len := fun p => decide (p.length = 416),
    badState := fun s i _ => (chan s i).running,
    badParam := fun _ i p _ => coefBlockBad i p,
    held := fun s i _ => calHeld s [i] }

/-- The set takes effect at the next `START` (R144). -/
def runConvCalLoad (s : State) (_ : Packet) (i : Nat) (p : List Byte) (_ : Option Nat) : Ran :=
  (stOK, [], setChan s i (fun ch => { ch with loaded := some (bytesCoef p), loadedValid := true }))

def execConvCalLoad (p : Packet) (s : State) : Host.Outcome State Fault Refusal :=
  .next (runPacket specConvCalLoad runConvCalLoad p s)

/-- The channels of a bitmap. -/
def bitmapList (n v : Nat) : List Nat := setBits n v

def specCalibrate : CmdSpec :=
  { opcode := 0x0440, modes := [.idle, .analyse, .record, .service], starts := true,
    len := fun p => decide (p.length = 8),
    absent := fun s _ p => (bitmapList 4 (fld p 0 1)).any (fun c => !fitted s.variant 0x01 c),
    badState := fun s _ p => (bitmapList 4 (fld p 0 1)).any (fun c => (chan s c).running),
    badParam := fun _ _ p _ => decide (fld p 0 1 % 16 = 0) || decide (32 ≤ fld p 0 1) ||
      (bit (fld p 0 1) 4 && decide (fld p 0 1 % 4 ≠ 3)) || !zeroBytes p 1 7,
    held := fun s _ p => calHeld s (bitmapList 4 (fld p 0 1)) }

/-- R128, R148: the operation powers the PLLs of the named channels. -/
def runCalibrate (s : State) (p : Packet) (_ : Nat) (pl : List Byte) (_ : Option Nat) : Ran :=
  let cs := bitmapList 4 (fld pl 0 1)
  let total := 64 * cs.length + (if bit (fld pl 0 1) 4 then 16 else 0)
  let (h, s) := startOp s 0x0440 0 p.tag.toNat total { args := cs, bytes := [BitVec.ofNat 8 (fld pl 0 1 / 16)] }
  (stACCEPTED, leBytes 4 h, pllsFollow s s.md.mode)

def execCalibrateConverters (p : Packet) (s : State) : Host.Outcome State Fault Refusal :=
  .next (runPacket specCalibrate runCalibrate p s)

end Sys2Proof.Machine
end

