-- ==== Sys2Proof/Machine/Rates.lean ====
section
/-! DEFINITION. Rates, strides, demands, capacities, headroom and the shares of the transform units (R20 to R22, R171,
R184, R196 to R200, R309, R482, R483, R566). Fractions are pairs of a numerator and a positive denominator. -/
namespace Sys2Proof.Machine

/-- A non-negative fraction. -/
abbrev Q := Nat × Nat

def qReduce (x : Q) : Q :=
  let g := Nat.gcd x.1 x.2
  if g = 0 then (0, 1) else (x.1 / g, x.2 / g)

def qAdd (x y : Q) : Q := qReduce (x.1 * y.2 + y.1 * x.2, x.2 * y.2)
def qSub (x y : Q) : Q := qReduce (x.1 * y.2 - y.1 * x.2, x.2 * y.2)
def qMul (x y : Q) : Q := qReduce (x.1 * y.1, x.2 * y.2)
def qDiv (x y : Q) : Q := if y.1 = 0 then (0, 1) else qReduce (x.1 * y.2, x.2 * y.1)
def qLe (x y : Q) : Bool := decide (x.1 * y.2 ≤ y.1 * x.2)
def qMin (x y : Q) : Q := if qLe x y then x else y
def qMax (x y : Q) : Q := if qLe x y then y else x
def qSum (l : List Q) : Q := l.foldl qAdd (0, 1)
def qNat (n : Nat) : Q := (n, 1)

/-- A fraction rounded half up. -/
def qRound (x : Q) : Nat := (2 * x.1 + x.2) / (2 * x.2)

/-! ### Zooms (R172, R180 to R184) -/

/-- The channel that a source code of kind 0x01 names. -/
def chanOfCode (code : Nat) : Nat := code % 256

/-- A setting of a zoom: that of its start while it delivers the outputs that a disable leaves (R190), its parameter
otherwise. -/
def zpar (s : State) (id z : Nat) : Nat :=
  let zm := nth s.zooms z {}
  if zm.running && zm.stopAt.isSome then tgetD zm.cfg id (par s id z) else par s id z

/-- The settings that a zoom keeps from its start. -/
def zoomKept : List Nat := [0x0602, 0x0605, 0x0610, 0x0611, 0x0613, 0x0614, 0x0615]

/-- The configuration alone: no unit keeps the settings of its start. -/
def asWritten (s : State) : State :=
  { s with zooms := s.zooms.map (fun z => { z with cfg := [] }), streams := s.streams.map (fun x => { x with cfg := [] }) }

/-- Every paired stream is CH0's (R139): a zoom on CH0 is then double-width (R172). -/
def zoomDouble (s : State) (z : Nat) : Bool :=
  paired s && decide (zpar s 0x0602 z = 0x0100) && decide (z % 2 = 0)

/-- ZM2m+1 is held while ZM2m is a double-width zoom (R172). -/
def zoomHeld (s : State) (z : Nat) : Bool := decide (z % 2 = 1) && zoomDouble s (z - 1)

/-- The half-lengths of Table 6-1, filters A to F as 0 to 5. -/
def halfLen (f : Nat) : Nat := nth [3, 5, 9, 19, 27, 39] f 0

/-- The SILENT sequence of Table 6-2. -/
def silentSeq : List Nat := [0, 0, 0, 0, 0, 0, 0, 1, 1, 2, 2, 2, 3, 5]

/-- The filters of preset j, stage 1 first (Table 6-2). -/
def presetFilters : Nat → List Nat
  | 1 => [1, 3]
  | 2 => [0, 0, 1, 4]
  | 3 => [0, 0, 0, 1, 2, 5]
  | 4 => [0, 0, 0, 0, 1, 2, 3, 5]
  | 5 => [0, 0, 0, 0, 0, 1, 2, 2, 3, 5]
  | 6 => [0, 0, 0, 0, 0, 0, 1, 1, 2, 2, 3, 5]
  | _ => silentSeq

/-- The filters of a zoom, stage 1 first (Table 6-2, R182). -/
def zoomFilters (s : State) (z : Nat) : List Nat :=
  if zpar s 0x0610 z = 0 then silentSeq.drop (14 - zpar s 0x0611 z) else presetFilters (zpar s 0x0610 z)

/-- The depth d. -/
def zoomDepth (s : State) (z : Nat) : Nat := (zoomFilters s z).length

/-- H, the composite half-length in conditioned samples (Table 6-2). -/
def zoomH (s : State) (z : Nat) : Nat :=
  ((zoomFilters s z).zipIdx).foldl (fun a x => a + halfLen x.1 * 2 ^ x.2) 0

/-- The resampler is in use (R183). -/
def zoomRs (s : State) (z : Nat) : Bool := decide (z < 4) && decide (zpar s 0x0614 z = 1)

/-- q of R183. -/
def zoomQ (s : State) (z : Nat) : Nat := zpar s 0x0615 z

/-- The channel a zoom taps. -/
def zoomChan (s : State) (z : Nat) : Nat := chanOfCode (zpar s 0x0602 z)

/-- The complex rate of a channel's conditioner, in S/s. -/
def condRate (s : State) (c : Nat) : Q := (ordRate s c, 2)

/-- The chain rate of a zoom, before the resampler. -/
def zoomChainRate (s : State) (z : Nat) : Q := qReduce (ordRate s (zoomChan s z), 2 ^ (zoomDepth s z + 1))

/-- The output rate of a zoom (`zoom.out_rate`). -/
def zoomRate (s : State) (z : Nat) : Q :=
  let r := zoomChainRate s z
  if zoomRs s z then qMul r (zoomQ s z, 2 ^ 40) else r

/-- The stride of a zoom's outputs in ordinals (R184). -/
def zoomStride (s : State) (z : Nat) : Q :=
  if zoomRs s z then qReduce (2 ^ (zoomDepth s z + 1) * 2 ^ 40, zoomQ s z)
  else (2 ^ (zoomDepth s z + 1), 1)

/-- R183: with the resampler in use, the chain rate is above 2.5 GS/s. -/
def zoomRsBroken (s : State) (z : Nat) : Bool :=
  zoomRs s z && !qLe (zoomChainRate s z) (2500000000, 1)

/-- The zooms that carry a zoom's work: two for a double-width one (R172). -/
def zoomUnits (s : State) (z : Nat) : List Nat := if zoomDouble s z then [z, z + 1] else [z]

/-! ### Sources of streams -/

/-- Whether a source code names a channel, or a zoom. -/
def isChanCode (code : Nat) : Bool := decide (code / 256 = 1)
def isZoomCode (code : Nat) : Bool := decide (code / 256 = 2)

/-- The complex rate of a channel or zoom source. -/
def srcRate (s : State) (code : Nat) : Q :=
  if isZoomCode code then zoomRate s (code % 256) else condRate s (code % 256)

/-- The stride of a channel or zoom source in ordinals. -/
def srcStride (s : State) (code : Nat) : Q :=
  if isZoomCode code then zoomStride s (code % 256) else (2, 1)

/-- The ordinal domain of a channel or zoom source. -/
def srcChan (s : State) (code : Nat) : Nat :=
  if isZoomCode code then zoomChan s (code % 256) else code % 256

/-! ### Spectrum streams -/

/-- A setting of a stream: that of its start while it delivers the frames that a disable leaves (R219), its parameter
otherwise. -/
def xpar (s : State) (id n : Nat) : Nat :=
  let st := nth s.streams n {}
  if st.running && st.stopAt.isSome then tgetD st.cfg id (par s id n) else par s id n

/-- The settings that a stream keeps from its start. -/
def xfKept : List Nat := [0x0702, 0x0704, 0x0706, 0x0707, 0x0708, 0x070C, 0x070D, 0x0720, 0x0721, 0x0722, 0x0723]

/-- N of a stream. -/
def xfN (s : State) (n : Nat) : Nat := 2 ^ xpar s 0x0704 n

/-- H of a hop code. -/
def hopOf (len code : Nat) : Nat := len / 2 ^ code

/-- A long transform (R214). -/
def xfLong (s : State) (n : Nat) : Bool := decide (17 ≤ xpar s 0x0704 n)

/-- A record-aligned stream (R215). -/
def xfRa (s : State) (n : Nat) : Bool := decide (xpar s 0x0720 n ≠ 0)

/-- f_rec of R196, R216 and R217. -/
def xfRecRate (s : State) (n : Nat) : Q :=
  match xpar s 0x0720 n with
  | 1 => qReduce (ordRate s (cueChan s), par s 0x0522 0)
  | 2 => qReduce (ordRate s (cueChan s), par s 0x0522 1)
  | _ => (xpar s 0x0723 n, 1)

/-- The hop code that a demand counts: the one a running stream has been given last, the configured one otherwise. -/
def xfHopNow (s : State) (n : Nat) : Nat :=
  let st := nth s.streams n {}
  if st.running then
    match st.hops.getLast? with
    | some x => x.hop
    | none => st.hop
  else par s 0x0705 n

/-- The demand of a stream at a hop code (R196), in samples per second. -/
def xfDemandAt (s : State) (n hop : Nat) : Q :=
  let overlap := 2 ^ hop
  if xfRa s n then qMul (qNat (xpar s 0x0722 n * overlap)) (xfRecRate s n)
  else qMul (qNat (if xfLong s n then 2 * overlap else overlap)) (srcRate s (xpar s 0x0702 n))

/-- Frames per second at a hop code (`xf.frame_rate`). -/
def xfFrameRate (s : State) (n hop : Nat) : Q :=
  let h := hopOf (xfN s n) hop
  if xfRa s n then qDiv (xfRecRate s n) (qNat h) else qDiv (srcRate s (xpar s 0x0702 n)) (qNat h)

/-! ### What runs -/

/-- The channels whose conditioners run, or that a `START` would start (R141, R144, R563). -/
def chanOn (s : State) (start : Bool) (c : Nat) : Bool :=
  if start then
    fitted s.variant 0x01 c && decide (par s 0x0402 (if paired s && decide (c = 1) then 0 else c) = 1)
  else (chan s c).running

/-- A zoom carries demand: enabled, on a running channel, not stopped by shedding or a reduction. -/
def zoomOn (s : State) (start : Bool) (z : Nat) : Bool :=
  decide (par s 0x0601 z = 1) && chanOn s start (zoomChan s z) && !zoomHeld s z &&
  (start || !(nth s.zooms z {}).shed) && !isOffline s 0x02 z

/-- A stream carries demand: enabled and its source runs. -/
def streamOn (s : State) (start : Bool) (n : Nat) : Bool :=
  let code := par s 0x0702 n
  fitted s.variant 0x03 n && decide (par s 0x0701 n = 1) &&
  (if isZoomCode code then zoomOn s start (code % 256) else chanOn s start (code % 256)) &&
  (start || !(nth s.streams n {}).shedStop)

/-- The stream a density unit counts, if any. -/
def duStream (s : State) (u : Nat) : Option Nat :=
  if par s 0x0B01 u = 0 then none else some (par s 0x0B01 u % 256)

/-- A density unit's demand at decimation 2^j (R309). -/
def duDemandAt (s : State) (u n j : Nat) : Q :=
  let c := par s 0x0B02 u
  let r := par s 0x0B03 u
  let w := if par s 0x0B06 u = 1 then par s 0x0B05 u * c else c
  qMul (qDiv (xfFrameRate s n (par s 0x0705 n)) (qNat (2 ^ j)))
    (qAdd (qNat w) (qReduce (c * r, par s 0x0B0D u)))

/-- The smallest decimation of R309, j from 0 to 16. -/
def duDecimation (s : State) (u n : Nat) : Option Nat :=
  (List.range 17).find? (fun j => qLe (duDemandAt s u n j) (20400000000, 1))

/-- A density unit carries demand: its stream does. -/
def duOn (s : State) (start : Bool) (u : Nat) : Bool :=
  fitted s.variant 0x07 u && !isOffline s 0x07 u && match duStream s u with
  | none => false
  | some n => streamOn s start n

/-- The demand of a density unit. -/
def duDemand (s : State) (start : Bool) (u : Nat) : Q :=
  match duStream s u with
  | none => (0, 1)
  | some n =>
    let x := nth s.dus u {}
    let j := if start || !x.running then (duDecimation s u n).getD 16 else x.dec
    duDemandAt s u n j

/-! ### Capacities (R482, R483) -/

/-- The engine numbered `e`. -/
def eng (s : State) (e : Nat) : Engine := tgetD s.engines e {}

/-- Unit monitors: transform units 0 to 15, engines from 16, spares from 272. -/
def monTU (u : Nat) : Nat := u
def monAE (e : Nat) : Nat := 16 + e
def monSpare (c : Nat) : Nat := 272 + c

/-- ρ of a monitor, 2^-14. -/
def rhoOf (s : State) (m : Nat) : Nat := tgetD s.health.rho m 16384

/-- min(G_q, g_q) of a region, 2^-14. -/
def regionF (s : State) (q : Nat) : Nat := Nat.min (nth s.health.replanF q 0) (nth s.health.factor q 0)

/-- C_x of a unit of rated capacity `rated` in region q with monitor factor ρ. -/
def capQ (s : State) (rated q rho : Nat) : Q := qReduce (rated * rho * regionF s q, 2 ^ 28)

/-- The capacity of a transform unit. -/
def tuCap (s : State) (u : Nat) : Q := capQ s 6000000000 (regionOf 0x03 u) (rhoOf s (monTU u))

/-- A transform unit in service. -/
def tuIn (s : State) (u : Nat) : Bool := fitted s.variant 0x03 u && !isOffline s 0x03 u

/-- The monitor of the physical engine that serves a number (R386). -/
def aeMon (s : State) (e : Nat) : Nat :=
  match (eng s e).physical with
  | none => monAE e
  | some c => monSpare c

/-- The engines of a cluster. -/
def clEngines (c : Nat) : List Nat := (List.range 16).map (fun i => 16 * c + i)

/-- The capacity of a cluster: the sum over its engines in service (R323, R483). -/
def clCap (s : State) (c : Nat) : Q :=
  qSum ((clEngines c).filterMap (fun e =>
    if (eng s e).st = .offline then none else some (capQ s 800000000 (regionOf 0x0A c) (rhoOf s (aeMon s e)))))

/-- A program declares its rate while it runs (R380, R381). -/
def aeDeclares (e : Engine) : Bool := e.st = .running || e.st = .waiting

/-- The demand of a cluster, in bundles per second. -/
def clDemand (s : State) (c : Nat) : Nat :=
  (clEngines c).foldl (fun a e => if aeDeclares (eng s e) then a + 1000 * (eng s e).prog.rate else a) 0

/-! ### Shares (R197) -/

/-- A stream's claim on the units: its number, demand and mask as the units in service that it names. -/
abbrev Claim := Nat × Q × List Nat

/-- The demand of a synchronised UNDERSTUDY's check path (R515): 65,536 samples per period, times the overlap factor of
each checked stream. Record-aligned streams are not checked. -/
def checkDemand (s : State) : Q :=
  if s.pair.role = 2 && s.pair.sync && decide (par s 0x1204 0 ≠ 0) then
    qSum (((List.range 16).filter (fun n => streamOn s false n && !xfRa s n)).map (fun n =>
      qReduce (65536 * 2 ^ xfHopNow s n * ordRate s (srcChan s (par s 0x0702 n)), par s 0x1204 0)))
  else (0, 1)

/-- The claim of the check path, numbered after the streams: any unit in service may take it. -/
def checkClaim (s : State) : List Claim :=
  if (checkDemand s).1 = 0 then [] else [(16, checkDemand s, (List.range 16).filter (tuIn s))]

/-- The claims of the running streams, or of those a `START` would run, and of the check path. -/
def claims (s : State) (start : Bool) : List Claim :=
  streamClaims s start ++ checkClaim s
where
  streamClaims (s : State) (start : Bool) : List Claim := (List.range 16).filterMap (fun n =>
    if streamOn s start n then
      let d := xfDemandAt s n (if start then par s 0x0705 n else xfHopNow s n)
      if d.1 = 0 then none else some (n, d, (setBits 16 (par s 0x0703 n)).filter (tuIn s))
    else none)

/-- Every subset of a list. -/
def subsets {α : Type} : List α → List (List α)
  | [] => [[]]
  | x :: xs => let r := subsets xs; r ++ r.map (fun l => x :: l)

/-- The units of the fabric. -/
def units16 : List Nat := List.range 16

/-- The units that a set of claims may use. -/
def reach (cs : List Claim) : List Nat := units16.filter (fun u => cs.any (fun c => c.2.2.contains u))

/-- The lowest highest utilisation (the largest ratio of a set's demand to the capacity it may use), or none where a
set may use no capacity. -/
def bestLevel (cs : List Claim) (cap : Nat → Q) : Option Q :=
  (subsets cs).foldl (fun acc sub =>
    match acc with
    | none => none
    | some m =>
      let d := qSum (sub.map (·.2.1))
      let k := qSum ((reach sub).map cap)
      if d.1 = 0 then some m else if k.1 = 0 then none else some (qMax m (qDiv d k)))
    (some (0, 1))

/-- The most work that the units of a set take under limits. -/
def flowInto (cs : List Claim) (lim : Nat → Q) (w : List Nat) : Q :=
  let total := qSum (cs.map (·.2.1))
  (subsets cs).foldl (fun acc sub =>
    let rest := qSub total (qSum (sub.map (·.2.1)))
    qMin acc (qAdd rest (qSum (((reach sub).filter (w.contains ·)).map lim)))) total

/-- The loads of the units: lexicographically greatest at the lowest highest utilisation. -/
def unitLoads (cs : List Claim) (lim : Nat → Q) : List Q :=
  units16.map (fun u => qSub (flowInto cs lim (List.range (u + 1))) (flowInto cs lim (List.range u)))

/-- One share: unit, stream, work. -/
abbrev Share := Nat × Nat × Q

/-- The next share of R197: the most that stream `k` of the claims can place on unit `u` when only the edges after it
remain. `left` holds the demand left of each claim, `load` the load left of each unit. -/
def shareMax (cs : List Claim) (left : List Q) (load : List Q) (u k : Nat) : Q :=
  let later := fun (j : Nat) (v : Nat) => (nth cs j (0, (0, 1), [])).2.2.contains v && (decide (u < v) || (decide (v = u) && decide (k < j)))
  let others := (List.range cs.length).filter (fun j => decide (j ≠ k))
  (subsets others).foldl (fun acc sub =>
    let nb := units16.filter (fun v => sub.any (fun j => later j v))
    if nb.contains u then
      qMin acc (qSub (qSum (nb.map (fun v => nth load v (0, 1)))) (qSum (sub.map (fun j => nth left j (0, 1)))))
    else acc) (qMin (nth left k (0, 1)) (nth load u (0, 1)))

/-- The shares, unit by unit and stream by stream. -/
def allShares (cs : List Claim) (load : List Q) : List Share :=
  ((units16.flatMap (fun u => (List.range cs.length).map (fun k => (u, k)))).foldl
    (fun (acc : List Share × List Q × List Q) e =>
      let c := nth cs e.2 (0, (0, 1), [])
      if c.2.2.contains e.1 then
        let x := shareMax cs acc.2.1 acc.2.2 e.1 e.2
        (if x.1 = 0 then acc.1 else acc.1 ++ [(e.1, c.1, x)],
         lmod acc.2.1 e.2 (fun d => qSub d x), lmod acc.2.2 e.1 (fun d => qSub d x))
      else acc) ([], cs.map (·.2.1), load)).1

/-- The shares that the stage manager chooses, with the highest utilisation; none where the work cannot be placed. -/
def chooseShares (s : State) (start : Bool) : Option (Q × List Share) :=
  let cs := claims s start
  match bestLevel cs (tuCap s) with
  | none => none
  | some lvl =>
    let lim := fun u => qMul lvl (tuCap s u)
    some (lvl, allShares cs (unitLoads cs lim))

/-! ### Headroom (R20, R22, R566) -/

/-- The units of a resource in service (R566) with demand and capacity: instance, demand, capacity. Resource 2 is the pool. -/
def resUnits (s : State) (start : Bool) : Nat → List (Nat × Q × Q)
  | 0 => ((fittedList s.variant 0x01).filter (fun c => !isOffline s 0x01 c)).map (fun c =>
      (c, (if chanOn s start c then (if paired s && decide (c < 2) then qNat 10000000000 else qNat (par s 0x0401 c)) else (0, 1)),
       capQ s 12000000000 c 16384))
  | 1 =>
    let busy := (List.range 32).filter (zoomOn s start)
    ((List.range 32).filter (fun z => !isOffline s 0x02 z)).map (fun z =>
      let d := (busy.filter (fun w => (zoomUnits s w).contains z)).map (fun w =>
        if zoomDouble s w then qReduce (ordRate s 0, 4) else condRate s (zoomChan s w))
      (z, qSum d, capQ s 6000000000 (regionOf 0x02 z) 16384))
  | 3 => ((fittedList s.variant 0x07).filter (fun u => !isOffline s 0x07 u)).map (fun u =>
      (u, (if duOn s start u then duDemand s start u else (0, 1)), capQ s 24000000000 (regionOf 0x07 u) 16384))
  | 4 => (fittedList s.variant 0x0A).map (fun c => (c, qNat (clDemand s c), clCap s c))
  | _ => []

/-- Headroom of a unit in 0.01%, rounded toward minus infinity; an unbounded shortage reads the least 32-bit value. -/
def headroom01 (d c : Q) : Int :=
  if d.1 = 0 then 10000
  else if c.1 = 0 then -(2 ^ 31)
  else
    let num : Int := (c.1 * d.2 : Nat) - (d.1 * c.2 : Nat)
    (10000 * num) / ((c.1 * d.2 : Nat) : Int)

/-- The unit of a resource with the lowest headroom, the lowest instance among equals. -/
def lowestUnit (us : List (Nat × Q × Q)) : Option (Nat × Q × Q) :=
  us.foldl (fun acc u =>
    match acc with
    | none => some u
    | some a =>
      -- d/c greater means less headroom
      let worse := if u.2.2.1 = 0 then decide (u.2.1.1 ≠ 0) && !(decide (a.2.2.1 = 0) && decide (a.2.1.1 ≠ 0))
        else if a.2.2.1 = 0 then false
        else !qLe (qMul u.2.1 (a.2.2.1, a.2.2.2)) (qMul a.2.1 (u.2.2.1, u.2.2.2))
      if worse then some u else acc) none

/-- Headroom, capacity and demand of a resource. Resource 2 takes the highest utilisation of a unit (R198). -/
def resource (s : State) (start : Bool) (r : Nat) : Int × Q × Q :=
  if r = 2 then
    let us := units16.filter (tuIn s)
    let c := qSum (us.map (tuCap s))
    let d := qSum ((claims s start).map (·.2.1))
    match bestLevel (claims s start) (tuCap s) with
    | none => (-(2 ^ 31), c, d)
    | some u => (headroom01 u (1, 1), c, d)
  else
    match lowestUnit (resUnits s start r) with
    | none => (10000, (0, 1), (0, 1))
    | some (_, d, c) => (headroom01 d c, c, d)

/-- The demand of every unit of a resource: what R22 compares to see whether a change alters it. -/
def demandKey (s : State) (start : Bool) (r : Nat) : List Q :=
  if r = 2 then
    (List.range 17).map (fun n => qSum (((claims s start).filter (fun c => c.1 = n)).map (·.2.1)))
  else (resUnits s start r).map (·.2.1)

/-- The resources whose demand differs between two states. -/
def demandChanged (a b : State) (start : Bool) : List Nat :=
  (List.range 5).filter (fun r => decide (demandKey a false r ≠ demandKey b start r))

/-- R22: some altered resource's demand exceeds its capacity. -/
def overCapacity (a b : State) (start : Bool) : Bool :=
  (demandChanged a b start).any (fun r =>
    let x := resource b start r
    decide (x.1 < 0) || (if r = 2 then false else
      (resUnits b start r).any (fun u => !qLe u.2.1 u.2.2)))

/-- The altered resources that a change leaves below 15% (R22), with the headroom it leaves. -/
def lowAfter (a b : State) (start : Bool) : List (Nat × Int) :=
  (demandChanged a b start).filterMap (fun r =>
    let h := (resource b start r).1
    if h < 1500 then some (r, h) else none)

/-- Recomputes the shares of the transform units (R197). -/
def reshare (s : State) : State :=
  match chooseShares s false with
  | none => { s with tus := s.tus.map (fun t => { t with shares := [] }) }
  | some (_, sh) =>
    { s with tus := (s.tus.zipIdx).map (fun x =>
      { x.1 with shares := (sh.filter (fun e => decide (e.1 = x.2))).map (fun e =>
        (e.2.1, (e.2.2.1 * 2 ^ 32) / e.2.2.2)) }) }

/-- The utilisation of a unit, 0.01% (`xf.tu_load`). -/
def tuLoad01 (s : State) (u : Nat) : Nat :=
  match chooseShares s false with
  | none => 0
  | some (_, sh) =>
    let w := qSum ((sh.filter (fun e => decide (e.1 = u))).map (·.2.2))
    let c := tuCap s u
    if c.1 = 0 then 0 else qRound (qMul (qNat 10000) (qDiv w c))

/-! ### Synchronisation of the pair (R510, R515) -/

/-- Recomputes the shares where a change takes or frees the work of the check path. -/
def reshareCheck (was s : State) : State := if checkDemand was = checkDemand s then s else reshare s

/-- A synchronised device loses synchronisation: 1 status, 2 ordinal passed, 3 gap, 4 shed, 5 split, 6 verdict. -/
def loseSync (s : State) (cause : Nat) : State :=
  if s.pair.sync then
    reshareCheck s (raise { s with pair := { s.pair with sync := false, lostBy := cause } } 0x1205 0 (2 * cause) (cueNow s))
  else s

end Sys2Proof.Machine
end

