-- ==== Sys2Proof/Machine/Zooms.lean ====
section
/-! DEFINITION. The zooms: NCO and mixer, half-band stages, resampler, flags, gaps, start and stop (chapter 6). -/
namespace Sys2Proof.Machine

/-! ### The NCO table (R176), computed in fixed point -/

/-- Scale of the fixed-point sine and cosine. -/
def fpOne : Nat := 2 ^ 96

/-- π × 2^96, rounded down. -/
def fpPi : Nat := 248902613312231085230521944622

/-- Terms of the cosine or sine series at `x2` = x² × 2^-96: the sum of the terms from `t`, the j-th following. -/
def fpSeries (x2 : Nat) : Nat → Nat → Int → Int
  | 0, _, _ => 0
  | f + 1, j, t => t + fpSeries x2 f (j + 2) (-(t * (x2 : Int)) / ((fpOne * (j + 1) * (j + 2) : Nat) : Int))

/-- cos and sin of an angle 0 ≤ x ≤ π/2, times 2^96. -/
def fpCos (x : Nat) : Int := fpSeries (x * x / fpOne) 24 0 (fpOne : Int)
def fpSin (x : Nat) : Int := fpSeries (x * x / fpOne) 24 1 (x : Int)

/-- round(131,071 × v) for a value v × 2^96. -/
def fpTable (v : Int) : Int := divHalfUp (131071 * v) fpOne

/-- Entry p of the table: the cosine and the sine (R176). -/
def ncoEntry (p : Nat) : Int × Int :=
  let quad := p / 2 ^ 18 % 4
  let x := 2 * fpPi * (p % 2 ^ 18) / 2 ^ 20
  let c := fpTable (fpCos x)
  let s := fpTable (fpSin x)
  match quad with
  | 0 => (c, s)
  | 1 => (-s, c)
  | 2 => (-c, -s)
  | _ => (s, -c)

/-- phi rounded half up to 20 bits. -/
def ncoIndex (phi : Nat) : Nat := ((phi + 2 ^ 27) / 2 ^ 28) % 2 ^ 20

/-- The mixer of R174: a C18 sample by the table entry, narrowed to C24; saturation point 0. -/
def mix (x : FlagIQ) (phi : Nat) : FlagIQ × Bool :=
  let t := ncoEntry (ncoIndex phi)
  let i := divHalfUp (x.i * t.1 + x.q * t.2) (2 ^ 11)
  let q := divHalfUp (x.q * t.1 - x.i * t.2) (2 ^ 11)
  let hit := satHit 24 i || satHit 24 q
  ({ x with i := satS 24 i, q := satS 24 q, sat := x.sat || hit }, hit)

/-! ### Stages (R177, R179) -/

/-- An input before the zoom's start: zero, and it marks STL (R185). -/
def beforeStart : FlagIQ := { i := 0, q := 0, stl := true }

/-- A weighted sum of samples, and the OR of their flags. -/
def weigh (l : List FlagIQ) (h : Nat → Int) : FlagIQ :=
  (l.zipIdx).foldl (fun a x =>
    { i := a.i + h x.2 * x.1.i, q := a.q + h x.2 * x.1.q, ovr := a.ovr || x.1.ovr, stl := a.stl || x.1.stl,
      sat := a.sat || x.1.sat, gap := a.gap || x.1.gap }) { i := 0, q := 0 }

/-- The value in force of a per-sample setting at an ordinal: the last change at or below it (R190). -/
def tuneAt {α : Type} (changes : List TuneChange) (get : TuneChange → Option α) (ord : Nat) (d : α) : α :=
  changes.foldl (fun v c => if c.ord ≤ ord then (get c).getD v else v) d

/-- The lowest output of a stage that can differ from zero, where its inputs begin at number `lo`: the filters read zero below
the start, so that outputs of negative number do not vanish (R185). -/
def lowOut (f : Nat) (lo : Int) : Int := (lo - (halfLen f : Int) + 1) / 2

/-- Takes one input into a stage whose inputs begin at number `lo`; the output it completes, by its number, and whether its
narrowing saturated. -/
def stageIn (st : ZStage) (f : Nat) (lo : Int) (x : FlagIQ) (shiftOf : Int → Nat) : ZStage × Option (Int × FlagIQ × Bool) :=
  let half := halfLen f
  let n := 2 * half + 1
  let top : Int := lo + (st.taken : Int) - (half : Int)
  let hist := (x :: st.hist).take n
  let st' : ZStage := { taken := st.taken + 1, hist }
  if top % 2 = 1 then (st', none)
  else
    let k := top / 2
    let l := hist ++ List.replicate (n - hist.length) beforeStart
    let y := weigh l (fun i => hbTap (Config.halfBand f ((i : Int) - (half : Int))) ((i : Int) - (half : Int)))
    let sh := shiftOf k
    let yi := divHalfUp (y.i * (2 ^ sh : Nat)) (2 ^ Config.coefPoint)
    let yq := divHalfUp (y.q * (2 ^ sh : Nat)) (2 ^ Config.coefPoint)
    let hit := satHit 24 yi || satHit 24 yq
    (st', some (k, { y with i := satS 24 yi, q := satS 24 yq, sat := y.sat || hit }, hit))

/-- The aligned ordinal of output n of stage i (R190). -/
def stageOrd (a0 i : Nat) (n : Int) : Nat := ((a0 : Int) + (2 ^ (i + 1) : Nat) * n).toNat

/-- Runs an input of a number down the stages from stage `i`, whose inputs begin at `lo`: the stages after it, the chain
output with its number, and the saturation points hit with the stage outputs that hit them. -/
def stagesIn (a0 : Nat) (changes : List TuneChange) : Nat → Int → List (ZStage × Nat) → Int → FlagIQ →
    List ZStage × Option (Int × FlagIQ) × List (Nat × Int)
  | _, _, [], k, x => ([], some (k, x), [])
  | i, lo, (st, f) :: rest, _, x =>
    let shiftOf := fun n => (tuneAt changes (·.shift) (stageOrd a0 i n) 0 / 4 ^ (i - 1)) % 4
    match stageIn st f lo x shiftOf with
    | (st', none) => (st' :: rest.map (·.1), none, [])
    | (st', some (k, y, hit)) =>
      let (ss, out, hits) := stagesIn a0 changes (i + 1) (lowOut f lo) rest k y
      (st' :: ss, out, if hit then (i, k) :: hits else hits)

/-- The lowest chain output that can differ from zero. -/
def chainLow (fs : List Nat) : Int := fs.foldl (fun lo f => lowOut f lo) 0

/-- The first output of the stages that follow whose inputs include number k. -/
def firstAfter (fs : List Nat) (k : Int) : Int := fs.foldl (fun k f => (k - (halfLen f : Int) + 1) / 2) k

/-- The position of resampler output k (R183): chain sample n, and u. -/
def rsPos (q k : Nat) : Nat × Nat :=
  let t := k * 2 ^ 40
  (t / q, (t % q) * 2 ^ 24 / q)

/-- The first resampler output that reads chain output c. -/
def rsFirst (q : Nat) (c : Int) : Nat := if c ≤ 16 then 0 else cdiv ((c - 16).toNat * q) (2 ^ 40)

/-- Resampler output k from the 32 chain samples n - 15 to n + 16, newest first (R183); saturation point 15. -/
def rsOut (q k : Nat) (l : List FlagIQ) : FlagIQ × Bool :=
  let (_, u) := rsPos q k
  let p := u / 65536
  let w := u % 65536
  let tap := fun (p i : Nat) => coef18 (Config.resample p i)
  let at1 := fun i => if p + 1 = 256 then (if i = 0 then 0 else tap 0 (i - 1)) else tap (p + 1) i
  -- element j of the list is chain sample n + 16 - j, tap i = 31 - j
  let y := weigh l (fun j => tap p (31 - j) * ((65536 - w : Nat) : Int) + at1 (31 - j) * (w : Int))
  let d := 65536 * 2 ^ Config.coefPoint
  let yi := divHalfUp y.i d
  let yq := divHalfUp y.q d
  let hit := satHit 24 yi || satHit 24 yq
  ({ y with i := satS 24 yi, q := satS 24 yq, sat := y.sat || hit }, hit)

/-- The resampler outputs that the newest chain sample completes: `fuel` bounds their number; `top` is its number. The last
part lists the outputs that saturated. -/
def rsOuts (q : Nat) (top : Int) : Nat → Nat → ZStage → List FlagIQ × Nat × List Nat
  | 0, k, _ => ([], k, [])
  | f + 1, k, st =>
    let n := (rsPos q k).1
    if top < (n : Int) + 16 then ([], k, [])
    else
      let l := (st.hist.drop (top - ((n : Int) + 16)).toNat).take 32
      let l := l ++ List.replicate (32 - l.length) beforeStart
      let (y, hit) := rsOut q k l
      let (ys, k', h) := rsOuts q top f (k + 1) st
      (y :: ys, k', if hit then k :: h else h)

/-- The C16 narrowing of R188; saturation point 16. -/
def toC16 (x : FlagIQ) : FlagIQ × Bool :=
  let i := divHalfUp x.i 256
  let q := divHalfUp x.q 256
  let hit := satHit 16 i || satHit 16 q
  ({ x with i := satS 16 i, q := satS 16 q, sat := x.sat || hit }, hit)

/-- What fixes a chain: its filters, the phase rule, the resampler, and whether it has a mixer. -/
structure ChainCfg where
  filters : List Nat
  absolute : Bool := false
  rs      : Bool := false
  q       : Nat := 1
  mixer   : Bool := true
  deriving DecidableEq, Repr

/-- The chain of a zoom. -/
def zoomCfg (s : State) (z : Nat) : ChainCfg :=
  { filters := zoomFilters s z, absolute := decide (zpar s 0x0605 z = 1), rs := zoomRs s z, q := zoomQ s z }

/-- One input sample, number j, through a chain (R174 to R185): the outputs it completes, and the saturation points with the
first output that each reaches. -/
def chainTake (cfg : ChainCfg) (zm : Zoom) (j : Nat) (x : FlagIQ) : Zoom × List FlagIQ × List (Nat × Nat) :=
  let ord := 2 * j
  let rel : Int := (j : Int) - ((zm.origin / 2 : Nat) : Int)
  -- R175: at the first conditioned sample phi is the P in force there; a P written later starts at its own sample
  let freq := tuneAt zm.changes (·.freq) ord 0
  let written := zm.changes.foldl (fun a c =>
    if (c.ord + 1) / 2 = j then (match c.phase with | some p => some p | none => a) else a) (none : Option Nat)
  let phi := if cfg.absolute then uns 48 ((tuneAt zm.changes (·.phase) ord 0 : Int) + freq * (j : Int))
    else if rel = 0 then tuneAt zm.changes (·.phase) ord zm.phase else written.getD zm.phase
  let (m, hit0) := if cfg.mixer then mix x phi else (x, false)
  let (stages, chain, hits) := stagesIn zm.origin zm.changes 1 0 (zm.stages.zip cfg.filters) rel m
  let zm := { zm with next := j + 1, phase := uns 48 ((phi : Int) + freq), stages }
  let reach := fun (c : Int) => if cfg.rs then rsFirst cfg.q c else c.toNat
  let points := (if hit0 then [(0, reach (firstAfter cfg.filters rel))] else []) ++
    hits.map (fun h => (h.1, reach (firstAfter (cfg.filters.drop h.1) h.2)))
  match chain with
  | none => (zm, [], points)
  | some (c, y) =>
    if cfg.rs then
      let rs : ZStage := { taken := zm.rs.taken + 1, hist := (y :: zm.rs.hist).take 64 }
      let (ys, k, hs) := rsOuts cfg.q c 2 zm.rsNext rs
      ({ zm with rs, rsNext := k }, ys, points ++ hs.map (fun k => (15, k)))
    else (zm, if 0 ≤ c then [y] else [], points)

/-- The aligned ordinal of output k (R184), whole part. -/
def zoomOrd (s : State) (z k : Nat) : Nat :=
  let st := zoomStride s z
  (nth s.zooms z {}).origin + k * st.1 / st.2

def setZoom (s : State) (z : Nat) (f : Zoom → Zoom) : State := { s with zooms := lmod s.zooms z f }

/-- Puts one output of the zoom at the end of its block in progress, unless a disable excludes it (R190). -/
def zoomEmit (s : State) (z : Nat) (x : FlagIQ) : State :=
  let y := if memErr s 0x02 z then { x with gap := true } else x
  let zm := nth s.zooms z {}
  let k := zm.outIndex + zm.outs.length
  match zm.stopAt with
  | some c => if zoomOrd s z k < c then setZoom s z (fun m => { m with outs := m.outs ++ [y] }) else s
  | none => setZoom s z (fun m => { m with outs := m.outs ++ [y] })

/-- Posts `ZOOM_SAT` for the points that saturated (R179), with the aligned ordinal of the first output to carry it. -/
def zoomSat (s : State) (z : Nat) (points : List (Nat × Nat)) : State :=
  match (points.map (·.2)).min? with
  | none => s
  | some k =>
    let m := bitmapOf (points.map (·.1)).eraseDups
    let s := setZoom s z (fun zm => { zm with sat := zm.sat ||| m })
    raiseLatched s 0x0601 z m (some (zoomChan s z, zoomOrd s z k))

/-- Takes one conditioned sample, number j, into a running zoom (R174 to R188). -/
def zoomTake (s : State) (z j : Nat) (x : FlagIQ) : State :=
  let (zm, ys, points) := chainTake (zoomCfg s z) (nth s.zooms z {}) j x
  let s := setZoom s z (fun _ => zm)
  let s := zoomSat s z points
  ys.foldl (fun s y => zoomEmit s z y) s

/-- The inputs that each stage has taken once the first, whose inputs begin at `lo`, has taken m; and the number of the newest
chain output. -/
def stageCounts : Int → Nat → List Nat → List Nat × Int
  | lo, m, [] => ([], lo + (m : Int) - 1)
  | lo, m, f :: fs =>
    let first := lowOut f lo
    let last := (lo + (m : Int) - 1 - (halfLen f : Int)) / 2
    let (l, o) := stageCounts first (if m = 0 then 0 else (last + 1 - first).toNat) fs
    (m :: l, o)

/-- A zoom goes on at conditioned index j: what lies before it is past, with every number as it would be, and nothing of
it delivered. -/
def zoomJump (s : State) (z j : Nat) : State :=
  let zm := nth s.zooms z {}
  if j ≤ zm.next then s else
  let fs := zoomFilters s z
  let (l, o) := stageCounts 0 (j - zm.origin / 2) fs
  let k := if !zoomRs s z then (o + 1).toNat else rsFirst (zoomQ s z) (o + 1)
  let freq := tuneAt zm.changes (·.freq) (2 * j) 0
  setZoom s z (fun zm => { zm with
    next := j, phase := uns 48 ((zm.phase : Int) + freq * ((j - zm.next : Nat) : Int)), stages := l.map (fun n => { taken := n })
    rs := { taken := if zoomRs s z then (o + 1 - chainLow fs).toNat else 0 }, rsNext := if zoomRs s z then k else 0
    outIndex := k, outs := [] })

/-- The smallest multiple of m at or after s. -/
def alignUp (s m : Nat) : Nat := cdiv s m * m

/-- The settings that a zoom takes at its start, by parameter. -/
def zoomCfgNow (s : State) (z : Nat) : Tab Nat := zoomKept.foldl (fun t id => tput t id (zpar s id z)) []

/-- The per-sample settings as they stand, as the first change of a turn. -/
def tuneNow (s : State) (z : Nat) : List TuneChange :=
  [{ ord := 0, freq := some (parI s 0x0603 z), phase := some (par s 0x0604 z), shift := some (par s 0x0612 z) }]

/-- A zoom starts at ordinal `at_` (R184): its origin, and the values in force. -/
def zoomStart (s : State) (z at_ : Nat) : State :=
  let d := zoomDepth s z
  let a0 := alignUp at_ (2 ^ (d + 1))
  setZoom s z (fun zm => { zm with
    running := true, shed := false, origin := a0, next := a0 / 2, phase := par s 0x0604 z, changes := tuneNow s z
    stages := List.replicate d {}, rs := {}, rsNext := 0, outIndex := 0, outs := [], stopAt := none,
    gaps := [], gapsOut := [], cfg := zoomCfgNow s z, later := [], wait := [], waitGaps := [] })

/-- The zooms that a conditioned sample j of channel c feeds. -/
def zoomsOf (s : State) (c j : Nat) : List Nat :=
  (List.range 32).filter (fun z =>
    let zm := nth s.zooms z {}
    zm.running && decide (zoomChan s z = c) && decide (zm.next ≤ j))

/-- Some turn of a zoom that waits taps a channel. -/
def turnTaps (zm : Zoom) (code : Nat) : Bool := zm.later.any (fun t => decide (tgetD t.cfg 0x0602 0 = code))

/-- A conditioned sample is kept for the turns of a zoom that wait. -/
def zoomKeep (s : State) (z code j : Nat) (x : FlagIQ) : State :=
  setZoom s z (fun m => if turnTaps m code then { m with wait := m.wait ++ [(code, j, x)] } else m)

/-- Gives a conditioned sample to every zoom on its channel. -/
def feedZooms (s : State) (c j : Nat) (x : FlagIQ) : State :=
  (List.range 32).foldl (fun s z => zoomKeep s z (0x0100 + c) j x) ((zoomsOf s c j).foldl (fun s z => zoomTake s z j x) s)

/-- All the outputs that a disable allows have been computed: the next output's aligned ordinal reaches it. -/
def zoomDone (s : State) (z : Nat) : Bool :=
  let zm := nth s.zooms z {}
  match zm.stopAt with
  | none => false
  | some c => decide (c ≤ zoomOrd s z (zm.outIndex + zm.outs.length))

/-! ### Gaps (R187) -/

/-- The first and last outputs whose input span includes one of the lost ordinals (R132, R185), if any. -/
def zoomGapRange (s : State) (z : Nat) (m : GapMarker) : Option (Nat × Nat) :=
  let zm := nth s.zooms z {}
  let d := zoomDepth s z
  let h := zoomH s z
  let base := zm.origin / 2
  -- conditioned indices whose span (2j - 24 to 2j + 24) meets the gap
  let jlo := cdiv (m.first - 24) 2
  let jhi := (m.last + 24) / 2
  if jhi + h < base then none else
  let clo := cdiv (jlo - (base + h)) (2 ^ d)
  let chi := (jhi + h - base) / 2 ^ d
  if zoomRs s z then
    let q := zoomQ s z
    let lo := if clo ≤ 16 then 0 else cdiv ((clo - 16) * q) (2 ^ 40)
    let hi := ((chi + 16) * q - 1) / 2 ^ 40
    if hi < lo then none else some (lo, hi)
  else if chi < clo then none else some (clo, chi)

/-- A zoom takes a gap marker: it will emit its own ahead of the block that holds the first affected output. -/
def zoomMarker (s : State) (z : Nat) (m : GapMarker) : State :=
  let s := setZoom s z (fun zm => if turnTaps zm m.source then { zm with waitGaps := zm.waitGaps ++ [m] } else zm)
  if !(nth s.zooms z {}).running || decide (zoomChan s z ≠ m.source % 256) then s else
  match zoomGapRange s z m with
  | none => s
  | some (lo, hi) =>
    setZoom s z (fun zm => { zm with
      gaps := zm.gaps ++ [{ first := lo, last := hi, marker := m }],
      gapsOut := zm.gapsOut ++ [{ m with first := lo, last := hi }] })

/-- The 32 bytes of a gap marker (Table 1-6). -/
def gapBytes (m : GapMarker) : List Byte :=
  let b := leBytes 2 1 ++ leBytes 2 m.source ++ leBytes 1 m.reason ++ leBytes 1 (b2n m.paired) ++ zeros 2 ++
    leBytes 8 m.first ++ leBytes 8 m.last ++ leBytes 4 m.sequence
  b ++ leBytes 4 (crc32c b)

/-! ### Blocks (R188) -/

/-- A flag bitmap of a block. -/
def flagMap (l : List FlagIQ) (f : FlagIQ → Bool) : Nat :=
  (l.zipIdx).foldl (fun m x => if f x.1 then m + 2 ^ x.2 else m) 0

/-- The bytes of a zoom block (Table 6-4), with the outputs given. -/
def zoomBlockBytes (s : State) (z first : Nat) (l : List FlagIQ) : List Byte :=
  let c16 := decide (zpar s 0x0613 z = 1)
  let zm := nth s.zooms z {}
  let lastOrd := zoomOrd s z (first + l.length - 1)
  let tunes := (zm.changes.drop 1).foldl (fun n c =>
    if c.ord ≤ lastOrd then n + b2n c.freq.isSome + b2n c.phase.isSome + b2n c.shift.isSome else n) 0
  let o := flagMap l (·.ovr)
  let st := flagMap l (·.stl)
  let sa := flagMap l (·.sat)
  let g := flagMap l (·.gap)
  let w := if c16 then 2 else 3
  leBytes 8 first ++ leBytes 2 (0x0200 + z) ++ leBytes 1 (b2n c16) ++
  leBytes 1 (b2n (o ≠ 0) + 2 * b2n (st ≠ 0) + 4 * b2n (sa ≠ 0) + 8 * b2n (g ≠ 0) + 16 * b2n (zoomDouble s z)) ++
  leBytes 1 l.length ++ zeros 1 ++ leBytes 2 tunes ++
  leBytes 8 o ++ leBytes 8 st ++ leBytes 8 sa ++ leBytes 8 g ++
  padTo (64 * 2 * w) ((l.map (fun x => leInt w x.i ++ leInt w x.q)).flatten)

/-- Changes the last turn of a zoom that waits. -/
def lastTurn (f : ZoomTurn → ZoomTurn) : List ZoomTurn → List ZoomTurn
  | [] => []
  | [t] => [f t]
  | t :: l => t :: lastTurn f l

/-- Applies a change to the per-sample settings of a running zoom (R190). -/
def zoomTune (s : State) (z : Nat) (c : TuneChange) : State :=
  setZoom s z (fun zm => if zm.running then
    { zm with changes := zm.changes ++ [c], later := lastTurn (fun t => { t with changes := t.changes ++ [c] }) zm.later } else zm)

/-- A disable at ordinal c (R190). -/
def zoomDisable (s : State) (z c : Nat) : State :=
  setZoom s z (fun zm =>
    if !zm.running then zm
    else if zm.later.isEmpty then { zm with stopAt := some (zm.stopAt.getD c) }
    else { zm with later := lastTurn (fun t => { t with stop := some (t.stop.getD c) }) zm.later })

/-- An enable at ordinal n of a zoom that still delivers (R190): at or before its disable it undoes that; after it a new turn
waits for the outputs below the disable. -/
def zoomAgain (s : State) (z n : Nat) : State :=
  let fresh : ZoomTurn := { at_ := n, changes := tuneNow s z, cfg := zoomKept.foldl (fun t id => tput t id (par s id z)) [] }
  setZoom s z (fun zm => match zm.later.getLast? with
    | none => (match zm.stopAt with
      | none => zm
      | some c => if n ≤ c then { zm with stopAt := none } else { zm with later := [fresh] })
    | some t => (match t.stop with
      | none => zm
      | some c => if n ≤ c then { zm with later := lastTurn (fun t => { t with stop := none }) zm.later }
        else { zm with later := zm.later ++ [fresh] }))

end Sys2Proof.Machine
end

