-- ==== Sys2Proof/Machine/Capture.lean ====
section
/-! DEFINITION. Capture units: rings, triggers, records, rate reduction, payload items (R253 to R272). -/
namespace Sys2Proof.Machine

def cap (s : State) (u : Nat) : CapUnit := nth s.caps u {}
def setCap (s : State) (u : Nat) (f : CapUnit → CapUnit) : State := { s with caps := lmod s.caps u f }

/-- The source code of a unit, its kind and instance (Table 9-1). -/
def capSrc (s : State) (u : Nat) : Nat := par s 0x0902 u
def capKind (s : State) (u : Nat) : Nat := capSrc s u / 256
def capInst (s : State) (u : Nat) : Nat := capSrc s u % 256

/-- The units that capture a source and run. -/
def capsOf (s : State) (code : Nat) : List Nat :=
  (List.range 16).filter (fun u => (cap s u).running && decide (capSrc s u = code))

/-! ### Rings (R263, R264, R266) -/

/-- The largest number of items of a type that one payload item holds. -/
def runMax : Nat → Nat
  | 0x10 => 16384 | 0x11 => 64 | 0x12 => 256 | 0x13 => 4096 | 0x14 => 512 | _ => 1

/-- The unit of ring sizes: so many to a byte. -/
def ringUnit : Nat := 16384 * 127

/-- What an item takes of a ring once formatted: its body, its share of a full run's prefix, and of the trailers (R264, R270,
R271, R277). A trigger or mark takes room only in a record. Room is counted in bytes, not in whole wing extents. DESIGN CHOICE,
see assumption 65. -/
def itemSize (i : CapItem) : Nat :=
  if i.typ = 0x20 || i.typ = 0x21 then 0
  else
    let body := if i.typ = 0x10 then 26624 else if i.typ = 0x13 then 16384 * (i.body.length + 8) else 16384 * i.body.length
    128 * (body + 16 * 16384 / runMax i.typ)

/-- The wings in use: the rings of the enabled units. -/
def wingsInUse (s : State) : Nat :=
  (List.range 16).foldl (fun a u => if par s 0x0901 u = 1 then a + par s 0x0911 u else a) 0

/-- Played bytes of a unit that are not confirmed: placed or delivered, and not yet formatted. -/
def playedOf (c : CapUnit) : Nat :=
  c.playedBytes + c.recs.foldl (fun a r => a + r.tail.length + (r.items.foldl (fun b i => b + itemSize i) 0) / ringUnit) 0

/-- The backlog in 0.01% (`cap.backlog`). -/
def backlog01 (s : State) : Nat :=
  let w := wingsInUse s
  if w = 0 then 0 else Nat.min 10000 (s.caps.foldl (fun a c => a + playedOf c) 0 * 10000 / w)

/-- The first ordinal that an accepted span still to be played covers. -/
def heldFrom (c : CapUnit) : Nat :=
  match (c.recs.flatMap (·.segs)).head? with
  | none => 2 ^ 64
  | some g => g.first

/-- Makes room in a ring: the oldest rehearsed items are struck while the ring is too full; a CAL body leaves with the
data it was ahead of. -/
def makeRoom (room : Nat) : Nat → CapUnit → CapUnit
  | 0, c => c
  | f + 1, c =>
    if c.ringBytes / ringUnit ≤ room then { c with blocked := false } else
    match c.ring with
    | [] => { c with blocked := true }
    | i :: rest =>
      if i.last < heldFrom c then
        makeRoom room f { c with ring := rest, ringBytes := c.ringBytes - itemSize i, lostTo := Nat.max c.lostTo (i.last + 1),
                                 cal := if i.typ = 0x23 then i.body else c.cal }
      else { c with blocked := true }

/-- Applies the room rule to a unit's ring. -/
def settleRing (s : State) (u : Nat) : State :=
  setCap s u (fun c => makeRoom (par s 0x0911 u - playedOf c) c.ring.length c)

/-- Inserts an item at its place: behind every item that ends below its ordinal. -/
def insertItem (i : CapItem) : List CapItem → List CapItem
  | [] => [i]
  | x :: xs => if i.ord ≤ x.last && i.ord ≤ x.ord then i :: x :: xs else x :: insertItem i xs

/-- An item of the source's own: data, or a gap marker. -/
def ofSource (i : CapItem) : Bool := i.typ = 0x01 || (decide (0x10 ≤ i.typ) && decide (i.typ < 0x20))

/-- Puts an item at the end of a unit's ring. -/
def pushItem (s : State) (u : Nat) (j : CapItem) : State :=
  let i := if memErr s 0x08 u then { j with flags := j.flags ||| 8 } else j
  settleRing (setCap s u (fun c => { c with
    ring := c.ring ++ [i], ringBytes := c.ringBytes + itemSize i, lastIn := if ofSource i then Nat.max c.lastIn i.last else c.lastIn })) u

/-- Puts an item at the place of its ordinal. -/
def placeItem (s : State) (u : Nat) (i : CapItem) : State :=
  settleRing (setCap s u (fun c => { c with
    ring := insertItem i c.ring, ringBytes := c.ringBytes + itemSize i, lastIn := if ofSource i then Nat.max c.lastIn i.last else c.lastIn })) u

/-! ### Record headers (Table 9-14) -/

/-- The stride of a unit's source in ordinals; streams and the timed sources have that of their items. -/
def capStride (s : State) (u : Nat) : Q :=
  match capKind s u with
  | 1 => (1, 1)
  | 2 => zoomStride s (capInst s u)
  | 3 =>
    let n := capInst s u
    let st := srcStride s (par s 0x0702 n)
    qMul st (qNat (hopOf (xfN s n) (nth s.streams n {}).hop))
  | _ => (1, 1)

/-- The origin of a unit's source. -/
def capOrigin (s : State) (u : Nat) : Nat :=
  match capKind s u with
  | 2 => (nth s.zooms (capInst s u) {}).origin
  | 3 =>
    let n := capInst s u
    let code := par s 0x0702 n
    let st := srcStride s code
    let base := if isZoomCode code then (nth s.zooms (code % 256) {}).origin else 0
    base + (nth s.streams n {}).origin * st.1 / st.2
  | _ => 0

/-- D as a duration, 2^-32 s (R255). -/
def dTime (s : State) (d : Nat) : Nat := if s.tiu.rateMhz = 0 then 0 else d * 1000 * 2 ^ 32 / s.tiu.rateMhz

/-- The bits that a header shares with its record. -/
def recFlags (s : State) (r : OpenRec) (toStore : Bool) : Nat :=
  r.flags ||| (b2n (paired s) <<< 11) |||
    (if toStore then (b2n s.store.encrypted <<< 12) ||| (b2n s.store.mirror <<< 13) else 0)

/-- The record header, provisional or final. -/
def recHeader (s : State) (u : Nat) (r : OpenRec) (toStore final : Bool) (lastSerial : Nat) : List Byte :=
  let st := if final then 2 else 0
  let stride := capStride s u
  let b := ([0x55, 0x53, 0x46, 0x52, 0x45, 0x43, 0x48, 0x44] : List Byte) ++ leBytes 2 1 ++ leBytes 1 st ++ leBytes 1 r.mode ++
    leBytes 4 (recFlags s r toStore ||| b2n final) ++ leBytes 8 r.number ++
    (if toStore then leBytes 16 s.store.storeId else zeros 16) ++
    leBytes 2 (0x0800 + u) ++ leBytes 2 (capSrc s u) ++ leBytes 1 (capKind s u - 1) ++ leBytes 1 r.step0 ++
    leBytes 1 (cueChan s) ++ zeros 1 ++ leBytes 8 r.first ++ (if final then leBytes 8 r.lastOrd else leBytes 8 (2 ^ 64 - 1)) ++
    leBytes 8 r.d ++ leBytes 8 (dTime s r.d) ++ leBytes 10 ((timeOfOrd s r.first 0).getD 0) ++ zeros 6 ++
    leBytes 8 (1000 * ordRate s (cueChan s)) ++ leBytes 8 (capOrigin s u) ++ leBytes 8 stride.1 ++ leBytes 8 stride.2 ++
    padTo 64 r.trigger ++ leBytes 8 (cap s u).prevRec ++ leBytes 4 r.done ++ leBytes 4 r.steps ++ leBytes 8 r.payload ++
    leBytes 4 r.gaps ++ zeros 4 ++ leBytes 8 r.serial0 ++ leBytes 8 lastSerial
  stampHeader b st []

/-! ### Destinations -/

/-- Where a unit's played data goes: the store in RECORD, released in ANALYSE (R92), or the host. -/
inductive Dest3 where
  | store | released | host
  deriving DecidableEq, Repr

def capDest (s : State) (u : Nat) : Dest3 :=
  if par s 0x090B u = 1 then .host else if s.md.mode = .record then .store else .released

/-- The record in progress of a unit. -/
def headRec (s : State) (u : Nat) : OpenRec := nth (cap s u).recs 0 { mode := 0, first := 0 }
def setHead (s : State) (u : Nat) (f : OpenRec → OpenRec) : State :=
  setCap s u (fun c => { c with recs := lmod c.recs 0 f })

/-- Gives an item to the unit's DMA channel (R428): bytes, whether it ends a record, and its unit as the tag. -/
def hostItem (s : State) (u : Nat) (bytes : List Byte) (ends : Bool) : State :=
  let s := setCap s u (fun c => { c with playedBytes := c.playedBytes + bytes.length })
  { s with host := { s.host with chans := lmod s.host.chans (par s 0x090C u) (fun d =>
      { d with data := d.data ++ [(bytes, ends, u + 1)] }) } }

/-- The prefix and body of an item (Table 9-5), padded to 8 bytes. -/
def itemBytes (typ count first : Nat) (body : List Byte) : List Byte :=
  leBytes 2 typ ++ leBytes 2 count ++ leBytes 4 body.length ++ leBytes 8 first ++ padTo ((body.length + 7) / 8 * 8) body

/-- Places full data blocks of the head record, and the rest of its payload too when `all`. -/
def placeData : Nat → Bool → State → Nat → State
  | 0, _, s, _ => s
  | f + 1, all, s, u =>
    let r := headRec s u
    if r.tail.isEmpty || (!all && decide (r.tail.length < 4064)) then s
    else
      let at_ := r.payload - r.tail.length
      let (serial, s) := placeBlock s u { record := r.number, index := r.blocks, kind := 0, data := r.tail.take 4064
                                          poison := r.poison.any (fun x => decide (at_ ≤ x) && decide (x < at_ + 4064)) }
      let s := setHead s u (fun r => { r with
        tail := r.tail.drop 4064, poison := r.poison.filter (fun x => decide (at_ + 4064 ≤ x)), blocks := r.blocks + 1, serial0 := if r.serial0 = 0 then serial else r.serial0 })
      placeData f all s u

/-- Counts one payload item in the head record and gives it to the record's destination. -/
def putItem (s : State) (u typ count first : Nat) (body : List Byte) : State :=
  let b := itemBytes typ count first body
  let s := setHead s u (fun r => { r with
    payload := r.payload + b.length
    gaps := r.gaps + b2n (typ = 0x01)
    steps := r.steps + b2n (typ = 0x02) })
  match capDest s u with
  | .store =>
    let s := setHead s u (fun r => { r with tail := r.tail ++ b })
    placeData (b.length / 4064 + 2) false s u
  | .host => hostItem s u b false
  | .released => emit s (.released u b.length)

/-- The first item of a unit's first record after a promotion: a MARK with the confirmed play offset in bytes 48 to 55 of
its cue record (R517). -/
def offsetMark (s : State) (u : Nat) : State :=
  match nth s.pair.markDue u none with
  | none => s
  | some off =>
    let s := { s with pair := { s.pair with markDue := lmod s.pair.markDue u (fun _ => none) } }
    putItem s u 0x21 1 (headRec s u).first (zeros 48 ++ leBytes 8 off ++ zeros 8)

/-- Opens the head record where it is not open: its number, RECORD_OPEN, its provisional header (R278, R283). One begun in
ANALYSE opens with the first item played in RECORD, and counts from there (R92). -/
def openHead (s : State) (u : Nat) : State :=
  let r := headRec s u
  match capDest s u with
  | .store =>
    if r.number ≠ 0 then s else
    let n := s.store.nextRecord
    let s := setStore s (fun t => { t with
      nextRecord := n + 1
      records := t.records ++ [{ number := n, unit := u, state := 0, source := capSrc s u,
                                 rate := ordRate s (cueChan s) }] })
    let s := jAppend s 0x01 (leBytes 8 n ++ leBytes 1 u ++ leBytes 1 r.mode ++ leBytes 2 (capSrc s u) ++ zeros 4 ++ leBytes 8 r.first)
    let s := setHead s u (fun r => { r with number := n, step0 := (cap s u).step, payload := 0, gaps := 0, steps := 0 })
    let h := recHeader s u (headRec s u) true false 0
    let s := setRec s n (fun x => { x with header := h })
    let (serial, s) := placeBlock s u { record := n, index := 0, kind := 1, data := h }
    offsetMark (setHead s u (fun r => { r with blocks := 1, serial0 := serial })) u
  | .host =>
    if r.headed then s else
    let s := setHead s u (fun r => { r with headed := true, number := (cap s u).records + 1, step0 := (cap s u).step })
    let h := recHeader s u (headRec s u) false false 0
    hostItem s u (itemBytes 0x30 1 (headRec s u).number h) false
  | .released => setHead s u (fun r => { r with headed := true })

/-- Stores one payload item in the head record. -/
def storeItem (s : State) (u typ count first : Nat) (body : List Byte) : State := putItem (openHead s u) u typ count first body

/-! ### Formatting runs of items (R270, R271, Table 9-6) -/

/-- A P13 block: 64 codes and their flags; places past the last sample are zero. -/
def p13Block (l : List CapItem) : List Byte :=
  let codes := (l.zipIdx).foldl (fun a x => a + (leNat x.1.body % 4096) * 2 ^ (12 * x.2)) 0
  let fl := (l.zipIdx).foldl (fun a x => if x.1.flags % 4 ≠ 0 then a + 2 ^ x.2 else a) 0
  leBytes 96 codes ++ leBytes 8 fl

/-- Splits a list in pieces of n. -/
def pieces {α : Type} : Nat → Nat → List α → List (List α)
  | 0, _, _ => []
  | f + 1, n, l => if l.isEmpty then [] else l.take n :: pieces f n (l.drop n)

/-- Stores a run of items of one type. -/
def storeRun (s : State) (u : Nat) (run : List CapItem) : State :=
  match run with
  | [] => s
  | i :: _ =>
    let s := if run.any (fun x => bit x.flags 4) then setHead s u (fun r => { r with poison := r.poison ++ [r.payload] }) else s
    if i.typ = 0x10 then
      let bl := (pieces run.length 64 run).map p13Block
      storeItem s u 0x10 bl.length i.ord bl.flatten
    else if i.typ = 0x13 then storeItem s u 0x13 run.length i.index (run.flatMap (fun x => x.body ++ leBytes 8 x.ord))
    else storeItem s u i.typ run.length i.index (run.flatMap (·.body))

/-- Formats the played items of the head record: every full run, and the last run too when `all`. -/
def formatHead : Nat → Bool → State → Nat → State
  | 0, _, s, _ => s
  | f + 1, all, s, u =>
    match (headRec s u).items with
    | [] => s
    | i :: rest =>
      let n := 1 + (rest.takeWhile (fun x => x.typ = i.typ)).length
      let k := Nat.min n (runMax i.typ)
      if k < runMax i.typ && k = rest.length + 1 && !all then s
      else
        let run := (i :: rest).take k
        let s := setHead s u (fun r => { r with items := r.items.drop k })
        formatHead f all (storeRun s u run) u

/-! ### Zoom blocks cut at a span's ends -/

/-- Keeps outputs lo to hi - 1 of a zoom block (Table 6-4); its change count is that of the block. -/
def cutBlock (b : List Byte) (lo hi : Nat) : List Byte :=
  let w := if fld b 10 1 = 1 then 4 else 6
  let m := fun off => fld b off 8 / 2 ^ lo % 2 ^ (hi - lo)
  let o := m 16
  let st := m 24
  let sa := m 32
  let g := m 40
  leBytes 8 (fld b 0 8 + lo) ++ leBytes 2 (fld b 8 2) ++ leBytes 1 (fld b 10 1) ++
    leBytes 1 (b2n (o ≠ 0) + 2 * b2n (st ≠ 0) + 4 * b2n (sa ≠ 0) + 8 * b2n (g ≠ 0) + 16 * (fld b 11 1 / 16)) ++
    leBytes 1 (hi - lo) ++ zeros 1 ++ leBytes 2 (fld b 14 2) ++
    leBytes 8 o ++ leBytes 8 st ++ leBytes 8 sa ++ leBytes 8 g ++ padTo (64 * w) (((b.drop 48).take (hi * w)).drop (lo * w))

/-- Cuts a zoom-block item by output count: the outputs before place k, and those from it. `lin` gives the ordinals. -/
def cutItem (i : CapItem) (k : Nat) (lin : Nat → Nat) : CapItem × CapItem :=
  let n := fld i.body 12 1
  ({ i with body := cutBlock i.body 0 k, last := lin (i.index + k - 1) },
   { i with body := cutBlock i.body k n, index := i.index + k, ord := lin (i.index + k) })

/-- Places of a zoom block whose ordinals lie below n. -/
def placesBelow (i : CapItem) (lin : Nat → Nat) (n : Nat) : Nat :=
  ((List.range (fld i.body 12 1)).takeWhile (fun j => decide (lin (i.index + j) < n))).length

/-- The ordinal of output k of the zoom-block items of a unit: those of its zoom, or of its reducer. -/
def blockOrd (s : State) (u : Nat) (i : CapItem) (k : Nat) : Nat :=
  if i.last = i.ord then i.ord
  else
    let st := if fld i.body 8 2 / 256 = 2 then zoomStride s (fld i.body 8 2 % 256)
      else ((i.last - i.ord) / (fld i.body 12 1 - 1), 1)
    if fld i.body 8 2 / 256 = 2 && decide (capKind s u = 2) && decide ((cap s u).step = 0) then zoomOrd s (capInst s u) k
    else i.ord + (k - i.index) * st.1 / st.2

/-! ### Playing spans -/

/-- The chain of a reducer at step j. -/
def reducerCfg (s : State) (u j : Nat) : ChainCfg :=
  if capKind s u = 1 then { filters := presetFilters j, mixer := true }
  else { filters := (List.range j).flatMap (fun _ => [3, 5]), mixer := false }

/-- Stride of a reducer's outputs, in ordinals. -/
def reducerStride (s : State) (u j : Nat) : Q :=
  if capKind s u = 1 then (2 ^ ((presetFilters j).length + 1), 1)
  else qMul (zoomStride s (capInst s u)) (qNat (4 ^ j))

/-- The ordinal of output k of a reducer at step j. -/
def reducerOrd (s : State) (u j : Nat) (zm : Zoom) (k : Nat) : Nat :=
  let st := reducerStride s u j
  zm.origin + k * st.1 / st.2

/-- Ordinals below this have all reached the unit. -/
def capProgress (s : State) (u : Nat) : Nat :=
  let c := cap s u
  let own := match capKind s u with
    | 1 => ordNext s (domainOf s (capInst s u))
    | 2 =>
      let z := nth s.zooms (capInst s u) {}
      if c.step = 0 then zoomOrd s (capInst s u) z.outIndex else zoomOrd s (capInst s u) (z.outIndex + z.outs.length)
    | 3 => (nth s.streams (capInst s u) {}).frame |> fun f =>
      let st := capStride s u
      capOrigin s u + (f - (nth s.streams (capInst s u) {}).segFrame) * st.1 / st.2
    | 6 => (eng s (capInst s u)).watermark
    | _ => ordNext s (cueChan s)
  let own := if c.red.running then Nat.min own (reducerOrd s u c.step c.red c.red.outIndex) else own
  if c.old.running then Nat.min own (reducerOrd s u c.oldStep c.old c.old.outIndex) else own

/-- Adds the flags of a played item to the head record. -/
def noteFlags (r : OpenRec) (i : CapItem) : OpenRec :=
  let f := i.flags
  { r with flags := r.flags ||| (b2n (bit f 3 || i.typ = 0x01) <<< 4) ||| (b2n (bit f 0) <<< 5) |||
      (b2n (bit f 1) <<< 6) ||| (b2n (bit f 2) <<< 7) }

/-! ### Dead time (R253, R254) -/

/-- Ordinals of a closed range that gap markers name. -/
def gapsIn (l : List (Nat × Nat)) (lo hi : Nat) : Nat :=
  l.foldl (fun a g => a + (Nat.min (g.2 + 1) (hi + 1) - Nat.max g.1 lo)) 0

/-- e of R253 and the ordinal after it. -/
def afterE (c : CapUnit) : Nat := match c.e with
  | some e => e + 1
  | none => c.start

/-- The first ordinal of a checked span (R254). Ordinals before the source's start ordinal are not checked. DESIGN CHOICE, see
assumption 65. -/
def checkFrom (c : CapUnit) (armOrd : Nat) : Nat := Nat.max (afterE c) (Nat.max armOrd c.start)

/-- D and the flags DT_VERIFIED and DT_GAP of a span: its source has delivered everything below it. -/
def deadTime (s : State) (u : Nat) (g : Seg) (continuous : Bool) : Nat × Nat :=
  let h := if continuous then 0 else par s 0x0907 u
  if h ≠ 0 then (h, 0)
  else if g.first ≤ g.lo then (0, 1 <<< 9)
  else
    let n := gapsIn (cap s u).gapLog g.lo (g.first - 1)
    if n = 0 then (0, 1 <<< 9) else (n, (1 <<< 9) ||| (1 <<< 10))

/-- Begins a span: its dead time (R254), its SEGMENT item (R270); before the first one of a record, and where an update has
taken effect since, the CAL items (R272). -/
def beginSpan (s : State) (u : Nat) (g₀ : Seg) : State :=
  let (d, fl) := deadTime s u g₀ (decide ((headRec s u).mode = 2))
  let g := { g₀ with d, flags := g₀.flags ||| fl }
  let s := setHead s u (fun r => { r with
    segs := lmod r.segs 0 (fun _ => g), d := if r.done = 0 then d else r.d, flags := if r.done = 0 then r.flags ||| fl else r.flags })
  let s := openHead s u
  let c := cap s u
  let cal := ((c.ring.filter (fun i => decide (i.typ = 0x23) && decide (i.ord ≤ g.first))).map (·.body)).getLast?.getD c.cal
  let s := if capKind s u = 1 && !cal.isEmpty && decide (cal ≠ (headRec s u).cal) then
      let s := setHead s u (fun r => { r with cal })
      (pieces 2 416 cal).foldl (fun s b => setHead s u (fun r => { r with items := r.items ++
        [{ typ := 0x23, ord := g.first, last := g.first, index := g.first, body := b }] })) s
    else s
  let s := if (headRec s u).mode = 1 then
      let body := padTo 64 g.trigger ++ leBytes 8 g.d ++ leBytes 8 (dTime s g.d) ++ leBytes 8 g.first ++
        leBytes 8 (recFlags s { headRec s u with flags := g.flags } (capDest s u == .store))
      let item : CapItem := { typ := 0x22, ord := g.first, last := g.first, index := g.first, body }
      setHead s u (fun r => { r with items := item :: r.items })
    else s
  setHead s u (fun r => { r with segs := lmod r.segs 0 (fun g => { g with begun := true }) })

/-- Moves the items of the first span with an ordinal below a limit from the ring to the head record. -/
def moveItems (s : State) (u : Nat) (g : Seg) (limit : Nat) : Nat → State
  | 0 => s
  | f + 1 =>
    match (cap s u).ring with
    | [] => s
    | i :: rest =>
      if limit ≤ i.ord || g.last < i.ord then s
      else if i.last < g.first then
        let s := setCap s u (fun c => { c with ring := rest, ringBytes := c.ringBytes - itemSize i,
                                               lostTo := Nat.max c.lostTo (i.last + 1), cal := if i.typ = 0x23 then i.body else c.cal })
        moveItems s u g limit f
      else if i.typ = 0x11 && (decide (i.ord < g.first) || decide (g.last < i.last)) then
        let lin := blockOrd s u i
        if i.ord < g.first then
          let k := placesBelow i lin g.first
          moveItems (setCap s u (fun c => { c with ring := (cutItem i k lin).2 :: rest })) u g limit f
        else
          let k := placesBelow i lin (g.last + 1)
          let (a, b) := cutItem i k lin
          let s := setCap s u (fun c => { c with ring := b :: rest })
          setHead s u (fun r => noteFlags { r with items := r.items ++ [a] } a)
      else
        let s := setCap s u (fun c => { c with ring := rest, ringBytes := c.ringBytes - itemSize i })
        let keep := !(decide (i.typ = 0x23) && decide (i.ord ≤ g.first))
        let s := if i.typ = 0x23 then setHead (setCap s u (fun c => { c with cal := i.body })) u (fun r => { r with cal := i.body }) else s
        let s := if keep then setHead s u (fun r => noteFlags { r with items := r.items ++ [i] } i) else s
        moveItems s u g limit f

/-- The detail of `CAPTURE_PLAYED` (Table 9-20). -/
def playedDetail (g : Seg) (mode : Nat) : Nat :=
  Nat.min g.d (2 ^ 24 - 1) + (b2n (bit g.flags 9) <<< 24) + (b2n (bit g.flags 10) <<< 25) + (b2n (bit g.flags 1) <<< 26) +
    (b2n (bit g.flags 8) <<< 27) + (b2n (mode = 1) <<< 28)

/-- Where the final header of the head record goes. A record opened in RECORD is ended in the store, though RECORD has been left.
DESIGN CHOICE, see assumption 65. -/
def endDest (s : State) (u : Nat) : Dest3 :=
  match capDest s u with
  | .released => if (headRec s u).number = 0 then .released else .store
  | .store => if (headRec s u).number = 0 then .released else .store
  | .host => .host

/-- Ends the head record: the final header, RECORD_END, counts, and the disarm of R258. -/
def endHead (s : State) (u : Nat) : State :=
  let s := formatHead ((headRec s u).items.length + 1) true s u
  let r := headRec s u
  let s := match endDest s u with
    | .store =>
      let s := placeData (r.tail.length / 4064 + 2) true s u
      let r := headRec s u
      let next := match openExtent s.store u with
        | some e => e.serial
        | none => s.store.nextSerial
      let h := recHeader s u r true true next
      let (serial, s) := placeBlock s u { record := r.number, index := r.blocks, kind := 1, final := true, data := h }
      let s := jAppend s 0x07 (leBytes 8 r.number ++ leBytes 8 r.lastOrd ++ leBytes 8 serial ++ leBytes 8 r.payload)
      let s := setRec s r.number (fun x => { x with header := h, ended := true })
      updateRec s r.number
    | .host => hostItem s u (itemBytes 0x30 1 r.number (recHeader s u r false true 0)) true
    | .released => s
  let max := par s 0x0909 u
  let s := setCap s u (fun c => { c with recs := c.recs.drop 1, prevRec := r.number, records := c.records + 1 })
  let c := cap s u
  let full := max ≠ 0 && decide (r.armAt = c.armOrd) && decide (max ≤ c.recsArmed) && c.recs.all (fun x => decide (x.armAt ≠ c.armOrd))
  if full then closeExtent (setCap s u (fun c => { c with armed := false })) u else s

/-- Plays what a limit allows: ordinals below it are played and have arrived. -/
def capPlayTo : Nat → Nat → State → Nat → State
  | 0, _, s, _ => s
  | f + 1, limit, s, u =>
    match (cap s u).recs with
    | [] => s
    | r :: _ =>
      match r.segs with
      | [] => if r.final then capPlayTo f limit (endHead s u) u else s
      | g :: _ =>
        if limit ≤ g.first then s else
        let s := if g.begun then s else beginSpan s u g
        let s := moveItems s u g limit (2 * (cap s u).ring.length + 2)
        let whole := decide (g.last < limit)
        let s := formatHead ((headRec s u).items.length + 1) (whole && r.mode ≠ 2) s u
        if whole && (r.mode ≠ 2 || r.final) then
          let s := setHead s u (fun r => { r with segs := r.segs.drop 1, done := r.done + 1, lastOrd := g.last })
          let s := raise s 0x0901 u (playedDetail g r.mode) (some (cueChan s, g.first))
          capPlayTo f limit s u
        else s

/-- Work bound of a unit: its records and spans. -/
def capFuel (s : State) (u : Nat) : Nat := 2 * (cap s u).recs.foldl (fun a r => a + 1 + r.segs.length) 1

/-- Records whose disarm ordinal is played take no further trigger (R260). -/
def endArming (s : State) (u : Nat) : State :=
  setCap s u (fun c => { c with recs := c.recs.map (fun r =>
    match r.until_ with
    | some x => if x ≤ s.cue.played then { r with final := true } else r
    | none => r) })

/-- Plays what the sheets have played and the source has delivered, and applies the room rule. -/
def capPlay (s : State) (u : Nat) : State :=
  let s := endArming s u
  settleRing (capPlayTo (capFuel s u) (Nat.min s.cue.played (capProgress s u)) s u) u

def capPlayAll (s : State) : State := (List.range 16).foldl capPlay s

/-! ### Arming and triggers (R258 to R262) -/

/-- A CONTINUOUS record that begins at an ordinal. -/
def continuousRec (s : State) (u first flags : Nat) : OpenRec :=
  let c := cap s u
  { mode := 2, first, flags, armAt := c.armOrd
    segs := [{ first, last := first + par s 0x0908 u - 1, flags, lo := checkFrom c c.armOrd }] }

/-- The open record of a CONTINUOUS unit ends at its limit, and the next begins at the ordinal after it (R261), unless the unit
has its `cap.max_records`. -/
def nextContinuous (s : State) (u : Nat) : State :=
  match ((cap s u).recs.filter (fun r => !r.final && r.mode = 2)).flatMap (·.segs) with
  | [] => s
  | g :: _ =>
    let s := setCap s u (fun c => { c with e := some g.last, recs := c.recs.map (fun r => if r.mode = 2 then { r with final := true } else r) })
    let max := par s 0x0909 u
    if max ≠ 0 && decide (max ≤ (cap s u).recsArmed) then s
    else
      let n := continuousRec s u (g.last + 1) 8
      setCap s u (fun c => { c with recs := c.recs ++ [n], recsArmed := c.recsArmed + 1 })

/-- The open record of a CONTINUOUS unit ends below an ordinal. -/
def rollsBelow (s : State) (u c : Nat) : Bool :=
  (cap s u).recs.any (fun r => r.mode = 2 && !r.final && r.segs.any (fun g => decide (g.last + 1 < c)))

/-- Every rollover below an ordinal. -/
def rollTo : Nat → State → Nat → Nat → State
  | 0, s, _, _ => s
  | f + 1, s, u, c => if rollsBelow s u c then rollTo f (nextContinuous s u) u c else s

/-- Arms a unit from an ordinal (R258). An arming in force before ends there. -/
def capArmNow (s : State) (u c : Nat) : State :=
  let s := setCap s u (fun x => { x with
    armed := true, armOrd := c, recsArmed := 0
    wins := x.wins.filter (fun w => decide (s.cue.played < w.2.1)) ++ (if x.armed then [(x.armOrd, c, x.recsArmed)] else []) })
  if par s 0x0903 u = 2 && (cap s u).running && (cap s u).recs.all (·.final) then
    let r := continuousRec s u (Nat.max c (cap s u).start) 0
    setCap s u (fun x => { x with recs := x.recs ++ [r], recsArmed := 1 })
  else s

/-- Disarms a unit from an ordinal: a CONTINUOUS record ends at the ordinal before, a SEGMENTED one with the segments that
triggers below it begin (R258, R260, R261). -/
def capDisarmNow (s : State) (u c : Nat) : State :=
  if !(cap s u).armed then s else
  let s := rollTo c s u c
  let s := setCap s u (fun x => { x with
    armed := false, wins := x.wins ++ [(x.armOrd, c, x.recsArmed)]
    e := if x.recs.any (fun r => r.mode = 2 && !r.final && decide (r.first < c)) then some (c - 1) else x.e
    recs := (x.recs.filter (fun r => !(r.mode = 2 && !r.final && decide (c ≤ r.first)))).map (fun r =>
      if r.final then r
      else if r.mode = 2 then { r with final := true, segs := r.segs.map (fun g => { g with last := Nat.min g.last (c - 1) }) }
      else { r with until_ := some (Nat.min c (r.until_.getD c)) }) })
  closeExtent (capPlay s u) u

/-- The arming that an ordinal lies in: its arm ordinal, and the records begun in it. -/
def armingAt (c : CapUnit) (t : Nat) : Option (Nat × Nat) :=
  if c.armed && decide (c.armOrd ≤ t) then some (c.armOrd, c.recsArmed)
  else (c.wins.find? (fun w => decide (w.1 ≤ t) && decide (t < w.2.1))).map (fun w => (w.1, w.2.2))

/-- A record begins in an arming. -/
def countRec (c : CapUnit) (arm : Nat) : CapUnit :=
  if c.armed && decide (c.armOrd = arm) then { c with recsArmed := c.recsArmed + 1 }
  else { c with wins := c.wins.map (fun w => if w.1 = arm then (w.1, w.2.1, w.2.2 + 1) else w) }

/-- A segment of the last record can join it: the record takes triggers at an ordinal. -/
def takesMore (c : CapUnit) (t : Nat) : Bool :=
  match c.recs.getLast? with
  | none => false
  | some r => !r.final && (match r.until_ with
    | some x => decide (t < x)
    | none => true)

/-- A trigger that is not accepted (R259). -/
def triggerIgnored (s : State) (u t : Nat) : State :=
  let s := setCap s u (fun c => { c with ignored := satU 32 (c.ignored + 1) })
  raiseLatched s 0x0903 u (cap s u).ignored (some (cueChan s, t))

/-- An accepted trigger begins a record or a segment, or is stored as an item of a CONTINUOUS unit. -/
def triggerTaken (s : State) (u t arm : Nat) (rec : List Byte) : State :=
  let c := cap s u
  let mode := par s 0x0903 u
  if mode = 2 then placeItem s u { typ := 0x20, ord := t, last := t, index := t, body := rec }
  else
    let lo := Nat.max (afterE c) c.start
    let want : Int := (t : Int) - par s 0x0904 u
    let first := Nat.max want.toNat lo
    let trunc := if want < (lo : Int) then 2 else 0
    let timed := if bit (fld rec 24 2) 4 then 1 <<< 8 else 0
    let flags := trunc ||| timed
    let g : Seg := { first, last := t + par s 0x0905 u - 1, trigger := rec, flags, lo := checkFrom c arm }
    let joins := mode = 1 && takesMore c t
    setCap s u (fun c => { (if joins then c else countRec c arm) with
      e := some g.last
      recs := if joins then
          lmod c.recs (c.recs.length - 1) (fun r => { r with
            segs := r.segs ++ [g], flags := r.flags ||| timed, final := decide (par s 0x0906 u ≤ r.done + r.segs.length + 1) })
        else c.recs ++ [{ mode, first, trigger := rec, flags, segs := [g], armAt := arm, final := mode = 0 || par s 0x0906 u = 1
                          until_ := if c.armed && decide (c.armOrd = arm) then none
                            else (c.wins.find? (fun w => decide (w.1 = arm))).map (·.2.1) }] })

/-- A played trigger reaches a unit (R259, R260, R261). -/
def capTrigger (s : State) (u t : Nat) (rec : List Byte) : State :=
  let c := cap s u
  let mode := par s 0x0903 u
  let max := par s 0x0909 u
  let a := afterE c + (if mode = 2 then 0 else par s 0x0907 u)
  match armingAt c t with
  | none => triggerIgnored s u t
  | some (arm, n) =>
    let spent := mode ≠ 2 && max ≠ 0 && decide (max ≤ n) && !(mode = 1 && takesMore c t)
    if c.running && (mode = 2 || decide (a ≤ t)) && !spent then triggerTaken s u t arm rec else triggerIgnored s u t

/-- A played mark reaches a unit (R262): it stands at its place among what is rehearsed, and is stored with it. -/
def capMark (s : State) (u t : Nat) (rec : List Byte) : State :=
  if (cap s u).running then
    placeItem s u { typ := 0x21, ord := t, last := t, index := t, body := rec } else s

/-- The head record of a CONTINUOUS unit, played whole, ends and the next begins at the ordinal after it (R261). -/
def rollover (s : State) (u : Nat) : State :=
  match (cap s u).recs with
  | r :: _ =>
    match r.segs with
    | g :: _ =>
      if r.mode = 2 && !r.final && g.begun && decide (g.last < Nat.min s.cue.played (capProgress s u)) then
        capPlay (nextContinuous s u) u
      else s
    | [] => s
  | [] => s

/-- RECORD_ROLLOVER. -/
def execRecordRollover (u : Fin 16) (s : State) : Host.Outcome State Fault Refusal := .next (rollover (capPlay s u) u)

/-! ### Start and end of a source -/

/-- A unit starts rehearsing at its source's start ordinal (R258). -/
def capStartUnit (s : State) (u ord : Nat) : State :=
  let s := setCap s u (fun c => { c with running := true, start := ord, ring := [], ringBytes := 0, blocked := false, lostTo := 0,
                                         lastIn := ord, cal := [], group := [], red := {} })
  let s := if capKind s u = 1 then
      let ch := capInst s u
      let one := coefBytes (ch = 1) (chan s ch).coef
      let cal := if paired s && decide (ch = 0) then one ++ coefBytes true (chan s 1).coef else one
      pushItem s u { typ := 0x23, ord, last := ord, index := ord, body := cal }
    else s
  if (cap s u).armed then capArmNow s u (Nat.max (cap s u).armOrd ord) else s

/-- The counts of every unit at START. -/
def capClearCounts (s : State) : State :=
  { s with caps := s.caps.map (fun c => { c with e := none, records := 0, ignored := 0, gapLog := [], armOrd := 0, stepCount := 0,
                                                 recsArmed := 0, wins := [], stepPend := none }) }

/-! ### Rate reduction (R266 to R269) -/

/-- Starts a reducer as a new stream at σ (R184, R268). -/
def reducerStart (s : State) (u j sigma : Nat) : Zoom :=
  if capKind s u = 1 then
    let d := (presetFilters j).length
    let a0 := alignUp sigma (2 ^ (d + 1))
    { running := true, origin := a0, next := a0 / 2, phase := 0, stages := List.replicate d {},
      changes := [{ ord := 0, freq := some (parI s 0x090F u), phase := some 0, shift := some 0 }] }
  else
    let zm := nth s.zooms (capInst s u) {}
    let st := zoomStride s (capInst s u)
    let k := cdiv ((sigma - zm.origin) * st.2) st.1
    let k0 := alignUp k (4 ^ j)
    { running := true, origin := zm.origin + k0 * st.1 / st.2, next := k0, stages := List.replicate (2 * j) {},
      changes := [{ ord := 0, freq := some 0, phase := some 0, shift := some 0 }] }

/-- The block of the first n outputs that a reducer at step j holds. -/
def reducerItem (s : State) (u j : Nat) (zm : Zoom) (n : Nat) : CapItem :=
  let c16 := if capKind s u = 1 then decide (par s 0x0910 u = 1) else decide (zpar s 0x0613 (capInst s u) = 1)
  let l := zm.outs.take n
  let l := if c16 then l.map (fun x => (toC16 x).1) else l
  let w := if c16 then 2 else 3
  let o := flagMap l (·.ovr)
  let st := flagMap l (·.stl)
  let sa := flagMap l (·.sat)
  let g := flagMap l (·.gap)
  let fl := b2n (o ≠ 0) + 2 * b2n (st ≠ 0) + 4 * b2n (sa ≠ 0) + 8 * b2n (g ≠ 0)
  let first := zm.outIndex
  { typ := 0x11, ord := reducerOrd s u j zm first, last := reducerOrd s u j zm (first + n - 1), index := first, flags := fl,
    body := leBytes 8 first ++ leBytes 2 (if capKind s u = 1 then 0x0800 + u else capSrc s u) ++ leBytes 1 (b2n c16) ++
      leBytes 1 fl ++ leBytes 1 n ++ zeros 1 ++ leBytes 2 0 ++ leBytes 8 o ++ leBytes 8 st ++ leBytes 8 sa ++ leBytes 8 g ++
      padTo (64 * 2 * w) ((l.map (fun x => leInt w x.i ++ leInt w x.q)).flatten) }

/-- Drops the first n outputs of a reducer. -/
def dropOuts (zm : Zoom) (n : Nat) : Zoom := { zm with outs := zm.outs.drop n, outIndex := zm.outIndex + n }

/-- Ends a unit's reducer or the one of its previous step: the outputs below σ are stored, the rest dropped (R268). -/
def endOld (s : State) (u sigma : Nat) : State :=
  let c := cap s u
  let n := ((List.range c.old.outs.length).takeWhile (fun i => decide (reducerOrd s u c.oldStep c.old (c.old.outIndex + i) < sigma))).length
  let whole := decide (sigma ≤ reducerOrd s u c.oldStep c.old (c.old.outIndex + c.old.outs.length))
  let s := if n = 64 || (whole && decide (0 < n)) then
      let m := Nat.min n 64
      setCap (placeItem s u (reducerItem s u c.oldStep c.old m)) u (fun c => { c with old := dropOuts c.old m })
    else s
  if whole then setCap s u (fun c => { c with old := {} }) else s

/-- One input of a unit's reducers, number j of its source. -/
def reducerTake (s : State) (u j : Nat) (x : FlagIQ) : State :=
  let c := cap s u
  let s := if c.old.running && decide (c.old.next ≤ j) then
      let (zm, ys, _) := chainTake (reducerCfg s u c.oldStep) c.old j x
      endOld (setCap s u (fun c => { c with old := { zm with outs := zm.outs ++ ys } })) u (c.old.stopAt.getD 0)
    else s
  if c.red.running && decide (c.red.next ≤ j) then
    let (zm, ys, _) := chainTake (reducerCfg s u c.step) c.red j x
    let zm := { zm with outs := zm.outs ++ ys }
    if 64 ≤ zm.outs.length then
      setCap (pushItem s u (reducerItem s u c.step zm 64)) u (fun c => { c with red := dropOuts zm 64 })
    else setCap s u (fun c => { c with red := zm })
  else s

/-- What the reducers of a unit hold when its source ends. -/
def reducerFlush (s : State) (u : Nat) : State :=
  let s := if (cap s u).old.running then
      let c := cap s u
      let s := if c.old.outs.isEmpty then s else placeItem s u (reducerItem s u c.oldStep c.old (Nat.min 64 c.old.outs.length))
      setCap s u (fun c => { c with old := {} })
    else s
  let c := cap s u
  if c.red.running && !c.red.outs.isEmpty then
    setCap (pushItem s u (reducerItem s u c.step c.red c.red.outs.length)) u (fun c => { c with red := dropOuts c.red c.red.outs.length })
  else s

/-- The bytes of a RATE_STEP marker (Table 9-4). -/
def rateStepBytes (code old new sigma index count : Nat) : List Byte :=
  let b := leBytes 2 2 ++ leBytes 2 code ++ leBytes 1 old ++ leBytes 1 new ++ zeros 2 ++ leBytes 8 sigma ++ leBytes 8 index ++
    leBytes 4 count
  b ++ leBytes 4 (crc32c b)

/-- One record for a group of PW16 records: the flags' OR and each bin's peak (R267); `short` marks one cut short (R268). -/
def groupRecord (l : List (List Byte)) (short : Bool) : List Byte :=
  match l with
  | [] => []
  | h :: _ =>
    let flags := l.foldl (fun f r => f ||| fld r 24 2) 0 ||| (if short then 0x0100 else 0)
    let n := fld h 36 4
    let body := (List.range n).flatMap (fun p => leBytes 2 (l.foldl (fun m r => Nat.max m (fld r (64 + 2 * p) 2)) 0))
    let head := (setBytes (setBytes (h.take 60) 24 (leBytes 2 flags)) 40 (leBytes 4 l.length)).take 60
    head ++ leBytes 4 (crc32c (head ++ body)) ++ padTo ((body.length + 63) / 64 * 64) body

/-- Ends the max-hold group in progress of a stream unit: one record for each position, in ascending position. -/
def groupEnd (s : State) (u : Nat) (short : Bool) : State :=
  let g := (cap s u).group
  let s := setCap s u (fun c => { c with group := [] })
  ((g.map (fun r => fld r 44 4)).eraseDups).foldl (fun s p =>
    let l := g.filter (fun r => decide (fld r 44 4 = p))
    let h := l.head?.getD []
    let b := groupRecord l short
    pushItem s u { typ := 0x12, ord := fld h 8 8, last := fld h 8 8, index := fld h 0 8, body := b, flags := fld b 24 2 % 16 }) s

/-- A pending step takes effect at an item of the source: its ordinal, and for a stream its frame's index (R268, R269). -/
def stepNow (s : State) (u ord frame : Nat) : State :=
  match (cap s u).stepPend with
  | none => s
  | some (sigma, new) =>
    let old := (cap s u).step
    let s := groupEnd s u true
    let was := (cap s u).red
    let red : Zoom := if new = 0 || capKind s u = 3 then {} else reducerStart s u new sigma
    let s := setCap s u (fun c => { c with
      step := new, stepPend := none, stepCount := c.stepCount + 1, red
      old := if was.running then { was with stopAt := some sigma } else {}, oldStep := old })
    let s := if was.running then endOld s u sigma else s
    let idx := if new ≠ 0 then 0 else match capKind s u with
      | 1 => sigma
      | 2 => let st := zoomStride s (capInst s u); cdiv ((sigma - (nth s.zooms (capInst s u) {}).origin) * st.2) st.1
      | _ => 0
    let mark := rateStepBytes (capSrc s u) old new sigma (if capKind s u = 3 then frame else idx) (cap s u).stepCount
    let at_ := if capKind s u = 3 then ord else sigma
    let s := pushItem s u { typ := 0x02, ord := at_, last := at_, index := sigma, body := mark }
    raise s 0x0902 u (new + 256 * old + 65536 * backlog01 s) (some (cueChan s, sigma))

/-- A pending step whose σ the source of a channel or zoom unit has reached takes effect (R268). -/
def stepApply (s : State) (u ord : Nat) : State :=
  match (cap s u).stepPend with
  | none => s
  | some (sigma, _) => if ord < sigma || capKind s u = 3 then s else stepNow s u ord 0

/-- The pending step of a stream unit as a frame comes (R268): the group of a step up is cut short at σ; the new step begins at
the first frame from σ on whose index is a multiple of its group length. The frames between form a group of the old step, cut
short too. DESIGN CHOICE, see assumption 65. -/
def stepFrame (s : State) (u ord frame : Nat) : State :=
  match (cap s u).stepPend with
  | none => s
  | some (sigma, new) =>
    if ord < sigma then s
    else if frame % 2 ^ new = 0 then stepNow s u ord frame
    else if new < (cap s u).step && (cap s u).group.any (fun r => decide (fld r 8 8 < sigma)) then groupEnd s u true
    else s

/-- A source ends below an ordinal: records end with the last item (R260), and the open extent closes (R281). -/
def capEndUnit (s : State) (u ord : Nat) : State :=
  if !(cap s u).running then s else
  let s := if capKind s u = 3 then groupEnd s u true else reducerFlush s u
  let s := (List.range ((cap s u).recs.length + 1)).foldl (fun s _ => rollover s u) s
  let lastItem := (cap s u).lastIn
  let s := setCap s u (fun c => { c with recs := c.recs.filterMap (fun r =>
    let gs := (r.segs.filter (fun g => g.begun || decide (g.first < ord))).map (fun g =>
      if ord ≤ g.last then { g with last := Nat.min (ord - 1) (Nat.max lastItem g.first),
                                    flags := if r.mode = 2 then g.flags else g.flags ||| 4 } else g)
    let short := r.mode ≠ 2 && r.segs.any (fun g => decide (ord ≤ g.last))
    if gs.isEmpty && r.done = 0 then none
    else some { r with segs := gs, final := true, flags := if short then r.flags ||| 4 else r.flags }) })
  let s := setCap s u (fun c => { c with e := match ((c.recs.flatMap (·.segs)).map (·.last)).getLast? with
    | some e => some e
    | none => c.e.map (Nat.min (ord - 1)) })
  let s := capPlayTo (capFuel s u + 2) (2 ^ 64) s u
  let s := setCap s u (fun c => { c with running := false, ring := [], ringBytes := 0, blocked := false, red := {}, old := {}, group := [],
                                         stepPend := none, step := 0 })
  closeExtent s u

/-- The unit that R266 steps down: lowest priority, then highest number. -/
def stepDownUnit (s : State) : Option Nat :=
  ((List.range 16).filter (fun u =>
    let c := cap s u
    c.running && decide (1 ≤ capKind s u) && decide (capKind s u ≤ 3) && c.stepPend.isNone && decide (c.step < par s 0x090E u))).foldl
    (fun b u => match b with
      | none => some u
      | some v => if par s 0x090D u ≤ par s 0x090D v then some u else some v) none

/-- Schedules a step of a unit at σ (R268). -/
def scheduleStep (s : State) (u new sigma : Nat) : State := setCap s u (fun c => { c with stepPend := some (sigma, new) })

/-- σ for a decision now. -/
def sigmaOf (s : State) (u : Nat) : Nat :=
  let code := capSrc s u
  let c := if capKind s u = 1 then domainOf s (capInst s u) else if capKind s u = 2 then srcChan s code
    else srcChan s (par s 0x0702 (capInst s u))
  alignUp (ordNext s c + schedLead s c) 65536

/-- One decision of R266: `below` says that the backlog has stayed below 25% for another second. Answers the unit and
whether it goes down. -/
def stepDecision (s : State) (below : Bool) : Option (Nat × Bool × Nat) × State :=
  let b := backlog01 s
  if 7500 < b then
    match stepDownUnit s with
    | none => (none, s)
    | some u =>
      let sg := sigmaOf s u
      let s := scheduleStep s u ((cap s u).step + 1) sg
      (some (u, true, sg), { s with reduce := { s.reduce with stack := u :: s.reduce.stack, above := true } })
  else if b < 2500 && below then
    match s.reduce.stack with
    | [] => (none, { s with reduce := { s.reduce with above := false } })
    | u :: rest =>
      let s := { s with reduce := { stack := rest, above := false } }
      if (cap s u).step = 0 then (none, s) else
      let sg := sigmaOf s u
      (some (u, false, sg), scheduleStep s u ((cap s u).step - 1) sg)
  else (none, { s with reduce := { s.reduce with above := decide (7500 < b) } })

/-- CAPTURE_RATE_STEP: the pending step of a unit, once its source has reached σ. -/
def execCaptureRateStep (u : Fin 16) (s : State) : Host.Outcome State Fault Refusal :=
  .next (if (cap s u).running then stepApply s u (capProgress s u) else s)

/-! ### What sources deliver -/

/-- One raw sample of a channel's domain reaches the units that capture it (R264, R271). -/
def capRaw (s : State) (d n : Nat) (code : BitVec 12) (ovr stl : Bool) : State :=
  (capsOf s (0x0100 + d)).foldl (fun s u =>
    let s := stepApply s u n
    if (cap s u).step = 0 then
      pushItem s u { typ := 0x10, ord := n, last := n, index := n, body := leBytes 2 code.toNat, flags := b2n ovr + 2 * b2n stl }
    else s) s

/-- A conditioned sample reaches the reducers of a channel. -/
def capCond (s : State) (d j : Nat) (x : FlagIQ) : State :=
  (capsOf s (0x0100 + d)).foldl (fun s u => reducerTake s u j x) s

/-- A marker of a source reaches its units, covering ordinals lo to hi of the cue channel. -/
def capGap (s : State) (code : Nat) (m : GapMarker) (lo hi : Nat) : State :=
  (capsOf s code).foldl (fun s u =>
    let s := setCap s u (fun c => { c with gapLog := c.gapLog ++ [(lo, hi)] })
    pushItem s u { typ := 0x01, ord := lo, last := hi, index := m.first, body := gapBytes m, flags := 8 }) s

/-- A RANGE marker (Table 9-4) reaches the units of a channel. -/
def capRange (s : State) (d fs ord lastStl : Nat) : State :=
  (capsOf s (0x0100 + d)).foldl (fun s u =>
    let b := leBytes 2 3 ++ leBytes 2 (0x0100 + d) ++ leBytes 1 fs ++ leBytes 1 (b2n (paired s && decide (d = 0))) ++ zeros 2 ++
      leBytes 8 ord ++ leBytes 8 lastStl ++ zeros 4
    pushItem s u { typ := 0x03, ord, last := ord, index := ord, body := b ++ leBytes 4 (crc32c b) }) s

/-- A background update that takes effect reaches the units of a channel (R272). -/
def capCal (s : State) (d ord : Nat) (bytes : List Byte) : State :=
  (capsOf s (0x0100 + d)).foldl (fun s u => pushItem s u { typ := 0x23, ord, last := ord, index := ord, body := bytes }) s

/-- A unit that takes a source has no room: its writer withholds acknowledge (R17, R264). -/
def capBlocked (s : State) (code : Nat) : Bool := (capsOf s code).any (fun u => (cap s u).blocked || stalled s 0x08 u)

/-! ### CAP_ARM, CAP_DISARM (R258) -/

/-- The units of the bitmap of a payload. -/
def capUnits (p : List Byte) : List Nat := setBits 16 (fld p 0 2)

def specCapArm : CmdSpec :=
  { opcode := 0x0950, atOk := true, modes := [.analyse, .record],
    len := fun p => decide (p.length = 8),
    badState := fun s _ _ => decide (3 ≤ s.md.level),
    badParam := fun _ _ p _ => !zeroBytes p 2 6 }

def specCapDisarm : CmdSpec :=
  { opcode := 0x0951, atOk := true, modes := [.analyse, .record],
    len := fun p => decide (p.length = 8), badParam := fun _ _ p _ => !zeroBytes p 2 6 }

def capApplied (s : State) : Nat := if running s (cueChan s) then appliedOrd s (cueChan s) else 0

def runCapArm (s : State) (p : Packet) (_ : Nat) (pl : List Byte) (at_ : Option Nat) : Ran :=
  match at_ with
  | some n => (stOK, [], schedule s p 0x0950 (cueChan s) n (.capArm (fld pl 0 2)))
  | none =>
    let c := capApplied s
    (stOK, if anyRunning s then appliedReply c else [], (capUnits pl).foldl (fun s u => capArmNow s u c) s)

def runCapDisarm (s : State) (p : Packet) (_ : Nat) (pl : List Byte) (at_ : Option Nat) : Ran :=
  match at_ with
  | some n => (stOK, [], schedule s p 0x0951 (cueChan s) n (.capDisarm (fld pl 0 2)))
  | none =>
    let c := capApplied s
    (stOK, if anyRunning s then appliedReply c else [], (capUnits pl).foldl (fun s u => capDisarmNow s u c) s)

def execCapArm (p : Packet) (s : State) : Host.Outcome State Fault Refusal := .next (runPacket specCapArm runCapArm p s)
def execCapDisarm (p : Packet) (s : State) : Host.Outcome State Fault Refusal := .next (runPacket specCapDisarm runCapDisarm p s)

end Sys2Proof.Machine
end

