-- ==== Sys2Proof/Machine/CueSheets.lean ====
section
/-! DEFINITION. Cue sheets: images, condition values, one ordinal of one sheet, and latency bounds (R222 to R252).
Everything here is a function of an image and a sheet's own state; `SheetPlay` gives the results their effects. -/
namespace Sys2Proof.Machine

/-! ### Images (Tables 8-2 to 8-5) -/

/-- The cue count of an image. -/
def imgCues (img : List Byte) : Nat := fld img 2 1

/-- Cue entry `j` of an image. -/
def imgCue (img : List Byte) (j : Nat) : List Byte := (img.drop (16 + 96 * j)).take 96

/-- A condition slot (Table 8-4). -/
structure Slot where
  kind : Nat
  inst : Nat
  test : Nat
  inv  : Bool
  hold : Nat
  thr  : Int
  deriving DecidableEq, Repr

/-- The slots in use of a cue entry, with their positions. -/
def cueSlots (c : List Byte) : List (Nat × Slot) :=
  (List.range 4).filterMap (fun i =>
    let p := (c.drop (16 * i)).take 16
    if fld p 0 1 = 0 then none
    else some (i, { kind := fld p 0 1, inst := fld p 1 1, test := fld p 2 1, inv := bit (fld p 3 1) 0,
                    hold := fld p 4 4, thr := sgn 32 (fld p 8 4) }))

def cueOr (c : List Byte) : Bool := bit (fld c 64 1) 0
def cueEach (c : List Byte) : Bool := bit (fld c 64 1) 1
def cueK (c : List Byte) : Nat := fld c 66 2
def cueMin (c : List Byte) : Nat := fld c 68 8
def cueMax (c : List Byte) : Nat := fld c 76 8
def cueNext (c : List Byte) : Nat × Nat := (fld c 84 1, fld c 85 1)
def cueTimeout (c : List Byte) : Nat × Nat := (fld c 86 1, fld c 87 1)
def cueCUs (c : List Byte) : Nat := fld c 88 2
def cueOuts (c : List Byte) : Nat := fld c 90 1
def cueSheets (c : List Byte) : Nat := fld c 91 1
def cueTaskIn (c : List Byte) : Nat := fld c 92 1

/-- Instances of a condition kind (Table 8-1). -/
def kindInsts : Nat → Nat
  | 0x01 => 16 | 0x02 => 16 | 0x03 => 16 | 0x04 => 16 | 0x05 => 16 | 0x06 => 256 | 0x07 => 256 | 0x08 => 128
  | 0x09 => 8 | _ => 0

/-- The tests of a condition kind (Table 8-1). -/
def kindTests : Nat → List Nat
  | 0x01 => [0, 1] | 0x02 => [0, 1, 2, 3] | 0x03 => [0, 1, 2, 3, 4, 5] | 0x04 => [2, 3, 4] | 0x05 => [0, 1]
  | 0x06 => [2] | 0x07 => [2] | 0x08 => [2] | 0x09 => [2] | _ => []

/-- Tests 0 and 1 are level tests, the others edge tests. -/
def levelTest (t : Nat) : Bool := decide (t < 2)

/-- R232: a condition slot breaks a rule. -/
def slotBad (p : List Byte) : Bool :=
  if fld p 0 1 = 0 then !zeroBytes p 0 16
  else
    let k := fld p 0 1
    let t := fld p 2 1
    decide (kindInsts k ≤ fld p 1 1) || !(kindTests k).contains t || decide (2 ≤ fld p 3 1) ||
    (levelTest t && decide (fld p 4 4 ≠ 0)) ||
    (if k = 0x05 then decide (uns 32 (sgn 24 (fld p 8 4)) ≠ fld p 8 4) else decide (fld p 8 4 ≠ 0)) ||
    !zeroBytes p 12 4

/-- A next or timeout code with its target. -/
def nextBad (cues : Nat) (x : Nat × Nat) : Bool :=
  decide (4 < x.1) || (if x.1 = 1 then decide (cues ≤ x.2) else decide (x.2 ≠ 0))

/-- R232: a cue entry breaks a rule. -/
def cueBad (cues : Nat) (c : List Byte) : Bool :=
  (List.range 4).any (fun i => slotBad ((c.drop (16 * i)).take 16)) ||
  decide (4 ≤ fld c 64 1) || decide (fld c 65 1 ≠ 0) || decide (cueK c = 0) ||
  (decide (cueMax c ≠ 0) && decide (cueMax c ≤ cueMin c)) ||
  ((cueSlots c).isEmpty && decide (cueMin c = 0)) ||
  nextBad cues (cueNext c) || nextBad cues (cueTimeout c) ||
  bit (cueOuts c) 7 || decide (8 ≤ cueTaskIn c) || !zeroBytes c 93 3

/-- R231, R232: an image breaks a rule; its length has been checked against its cue count. -/
def imageBad (img : List Byte) : Bool :=
  decide (fld img 0 2 ≠ 1) || !zeroBytes img 3 13 ||
  (List.range (imgCues img)).any (fun j => cueBad (imgCues img) (imgCue img j))

/-- R565: the length of an image is that of its cue count, 1 to 16. -/
def imageLen (img : List Byte) : Bool :=
  decide (img.length = 16 + 96 * imgCues img) && decide (1 ≤ imgCues img) && decide (imgCues img ≤ 16)

/-- The condition sources that an image uses, as kind and instance. -/
def imgSources (img : List Byte) : List (Nat × Nat) :=
  (List.range (imgCues img)).flatMap (fun j => (cueSlots (imgCue img j)).map (fun s => (s.2.kind, s.2.inst)))

/-! ### Condition values (R224) -/

/-- An item comes from a slot's source. -/
def fromSlot (s : Slot) (i : Item) : Bool := decide (i.kind = s.kind) && decide (i.inst = s.inst)

/-- The latest item of a slot's source at or before n. Items stand in ordinal order. -/
def latestItem (items : List Item) (s : Slot) (n : Nat) : Option Item :=
  (items.filter (fun i => fromSlot s i && decide (i.ord ≤ n))).getLast?

/-- A level test on the state that a source's latest item sets; LEVEL and CMP start in BELOW and OUTSIDE. -/
def levelValue (s : Slot) : Option Item → Bool
  | none => (decide (s.kind = 0x02) || decide (s.kind = 0x03)) && decide (s.test = 1)
  | some i =>
    if s.kind = 0x05 then (if s.test = 0 then decide (s.thr < i.level) else decide (i.level < s.thr))
    else if s.test = 0 then decide (i.level = 1) else decide (i.level ≠ 1)

/-- The value of a condition at ordinal n. -/
def slotValue (items : List Item) (s : Slot) (n : Nat) : Bool :=
  let v := if levelTest s.test then levelValue s (latestItem items s n)
    else items.any (fun i => fromSlot s i && i.tests.contains s.test && decide (i.ord ≤ n) && decide (n ≤ i.ord + s.hold))
  if s.inv then !v else v

/-- The combination of the conditions in use. -/
def combine (items : List Item) (c : List Byte) (n : Nat) : Bool :=
  let l := cueSlots c
  if cueOr c then l.any (fun s => slotValue items s.2 n) else l.all (fun s => slotValue items s.2 n)

/-- An item of one of the cue's sources stands at n. -/
def pointAt (items : List Item) (c : List Byte) (n : Nat) : Bool :=
  (cueSlots c).any (fun s => items.any (fun i => fromSlot s.2 i && decide (i.ord = n)))

/-! ### One ordinal of one sheet (R233 to R238) -/

/-- What playing an ordinal makes a sheet do: fire its cue (as FIRE, FORCE), time out, or mark. -/
inductive SheetAct where
  | fire (cue kind occ entry truth frac : Nat)
  | timeout (cue occ entry truth : Nat)
  | mark (cue occ entry frac : Nat)
  | overflow (input src : Nat)
  deriving DecidableEq, Repr

/-- A cue is entered at ordinal e. -/
def enterCue (c : SheetCore) (cue e : Nat) : SheetCore := { c with cue, e := (e : Int), occ := 0, prev := none, begun := false }

/-- Moves by a next or timeout code (Table 8-5), at ordinal n. -/
def moveBy (img : List Byte) (code : Nat × Nat) (c : SheetCore) (n : Nat) : SheetCore :=
  match code.1 with
  | 0 => if c.cue + 1 < imgCues img then enterCue c (c.cue + 1) n else { c with st := .disarmed }
  | 1 => enterCue c code.2 n
  | 2 => enterCue c c.cue n
  | 3 => enterCue c 0 n
  | _ => { c with st := .disarmed }

/-- The bitmap of the true slots of a cue at n. -/
def truthAt (items : List Item) (c : List Byte) (n : Nat) : Nat :=
  (cueSlots c).foldl (fun m s => if slotValue items s.2 n then m + 2 ^ s.1 else m) 0

/-- What is left of a step at an ordinal: the core, the acts so far, whether a cue has fired at n. -/
abbrev Stepping := SheetCore × List SheetAct × Bool

/-- Executes one event at an input (Table 8-6). -/
def doTask (img : List Byte) (items : List Item) (n input : Nat) (t : Task) (x : Stepping) : Stepping :=
  let (c, acts, fired) := x
  let c := if t.timed then { c with timed := true } else c
  let entry := imgCue img c.cue
  match input with
  | 0 => if c.st = .disarmed && !img.isEmpty then ({ enterCue c 0 n with st := .armed }, acts, fired) else (c, acts, fired)
  | 1 => ({ c with st := .disarmed }, acts, fired)
  | 2 =>
    if c.st = .armed then
      let a := SheetAct.fire c.cue 3 c.occ c.e.toNat (truthAt items entry n) t.frac
      (moveBy img (cueNext entry) c n, acts ++ [a], true)
    else (c, acts, fired)
  | 3 => if c.st = .disarmed then (c, acts, fired) else (enterCue c 0 n, acts, fired)
  | 4 => if c.st = .armed then ({ c with st := .paused }, acts, fired) else (c, acts, fired)
  | 5 => if c.st = .paused then ({ c with st := .armed }, acts, fired) else (c, acts, fired)
  | 6 => (c, acts ++ [.mark c.cue c.occ c.e.toNat t.frac], fired)
  | _ => if c.st = .disarmed then (c, acts, fired) else (moveBy img (cueNext entry) c n, acts, fired)

/-- The inputs that execute one event per ordinal (Table 8-6). -/
def onePerOrdinal (input : Nat) : Bool := decide (input = 2) || decide (input = 6) || decide (input = 7)

/-- Executes one input at n: the events waiting, then the new ones in ascending source index (R237, R238). -/
def doInput (img : List Byte) (items : List Item) (n input : Nat) (new : List Task) (x : Stepping) : Stepping :=
  if onePerOrdinal input then
    let q := nth x.1.pending input [] ++ new
    match q with
    | [] => x
    | t :: rest =>
      let keep := rest.take 255
      let lost := rest.drop 255
      let c := { x.1 with pending := lmod x.1.pending input (fun _ => keep) }
      doTask img items n input t (c, x.2.1 ++ lost.map (fun l => SheetAct.overflow input l.src), x.2.2)
  else new.foldl (fun x t => doTask img items n input t x) x

/-- The tasks of an input at an ordinal, in ascending source index. -/
def tasksAt (tasks : List Task) (n input : Nat) : List Task :=
  (List.range 10).flatMap (fun src => tasks.filter (fun t =>
    decide (t.ord = n) && decide (t.input = input) && decide (t.src = src)))

/-- The fraction of the stamp that fired a cue: that of the item at n of the lowest true CMP or EV condition (R252). -/
def firedFrac (items : List Item) (c : List Byte) (n : Nat) : Nat :=
  (((cueSlots c).filter (fun s => (decide (s.2.kind = 0x03) || decide (s.2.kind = 0x04)) && slotValue items s.2 n)).flatMap
    (fun s => (items.filter (fun i => fromSlot s.2 i && decide (i.ord = n))).map (·.frac))).head?.getD 0

/-- The evaluation point or timeout of the current cue (R233, R234), unless a cue fired or was entered at n (R237). -/
def evaluate (img : List Byte) (items : List Item) (n : Nat) (x : Stepping) : Stepping :=
  let (c, acts, fired) := x
  let entry := imgCue img c.cue
  if fired || c.st ≠ .armed || c.e = (n : Int) then x else
  let noCond := (cueSlots entry).isEmpty
  let point := pointAt items entry n
  let comb := combine items entry n
  let good := point && comb && decide (c.e + (cueMin entry : Int) ≤ (n : Int))
  let counts := good && (cueEach entry || !c.begun || c.prev = some false)
  let occ := if counts then c.occ + 1 else c.occ
  let c' := if point then { c with occ, prev := some comb, begun := c.begun || good } else c
  let fires := if noCond then decide (c.e + (cueMin entry : Int) = (n : Int)) else counts && decide (occ = cueK entry)
  let passed := cueMax entry ≠ 0 && decide (c.e + (cueMax entry : Int) < (n : Int))       -- during a pause (Table 8-6)
  if fires && !passed then
    (moveBy img (cueNext entry) c' n, acts ++ [.fire c.cue 0 occ c.e.toNat (truthAt items entry n) (firedFrac items entry n)], true)
  else if cueMax entry ≠ 0 && decide (c.e + (cueMax entry : Int) ≤ (n : Int)) then
    (moveBy img (cueTimeout entry) c' n, acts ++ [.timeout c.cue occ c.e.toNat (truthAt items entry n)], fired)
  else (c', acts, fired)

/-- The sheet becomes timed at n by the items it plays (R246). -/
def timedBy (img : List Byte) (items : List Item) (n : Nat) : Bool :=
  (imgSources img).any (fun k => items.any (fun i =>
    decide (i.kind = k.1) && decide (i.inst = k.2) && decide (i.ord = n) &&
    (i.late || bit i.flags 5 || bit i.flags 4 || bit i.flags 3)))

/-- Plays one ordinal of one sheet: tasks in ascending input, then the evaluation point (R237). -/
def sheetAt (img : List Byte) (items : List Item) (tasks : List Task) (c : SheetCore) (n : Nat) : SheetCore × List SheetAct :=
  let c := if timedBy img items n then { c with timed := true } else c
  let x : Stepping := (List.range 8).foldl (fun x i => doInput img items n i (tasksAt tasks n i) x) (c, [], false)
  let y := evaluate img items n x
  (y.1, y.2.1)

/-- The next ordinal at or after `from_` at which a sheet has something to do. -/
def sheetNext (img : List Byte) (items : List Item) (tasks : List Task) (c : SheetCore) (from_ : Nat) : Option Nat :=
  let entry := imgCue img c.cue
  let fromItems := (items.filter (fun i => decide (from_ ≤ i.ord) && (imgSources img).contains (i.kind, i.inst))).map (·.ord)
  let fromTasks := (tasks.filter (fun t => decide (from_ ≤ t.ord))).map (·.ord)
  let fromPend := if c.pending.any (fun q => !q.isEmpty) then [from_] else []
  let fromTime := if c.st ≠ .armed then [] else
    (if cueMax entry ≠ 0 then [Nat.max from_ (c.e + (cueMax entry : Int)).toNat] else []) ++
    (if (cueSlots entry).isEmpty && decide ((from_ : Int) ≤ c.e + (cueMin entry : Int)) then
      [(c.e + (cueMin entry : Int)).toNat] else [])
  (fromItems ++ fromTasks ++ fromPend ++ fromTime).min?

/-! ### Latency bounds (R186, R213, R222, R250), as fractions of a nanosecond -/

/-- An interval of x ordinals of channel c in ns. -/
def ordNs (s : State) (c x : Nat) : Q := qReduce (x * 10 ^ 9, Nat.max 1 (ordRate s c))

/-- R186. -/
def zoomLatency (s : State) (z : Nat) : Q :=
  let r := if zoomRs s z then 17 * 2 ^ (zoomDepth s z + 1) else 0
  qAdd (ordNs s (zoomChan s z) (112 + 23 + 2 * zoomH s z + r)) (1500, 1)

/-- T_F of R213. -/
def frameLatency (s : State) (n : Nat) : Q :=
  let code := par s 0x0702 n
  let l := if isZoomCode code then zoomLatency s (code % 256)
    else qAdd (ordNs s (code % 256) 135) (500, 1)
  let len := xfN s n
  if xfRa s n then qAdd l (qAdd (2 * par s 0x0722 n * len, 6) (20000, 1))
  else if xfLong s n then qAdd l (qAdd (4 * len, 6) (20000, 1))
  else qAdd l (qAdd (len, 6) (1000, 1))

/-- λ of a condition source, for a sheet (Table 8-1). -/
def sourceLatency (s : State) (sheet kind inst : Nat) : Q :=
  match kind with
  | 0x01 => qAdd (frameLatency s (par s 0x0820 inst % 256)) (500, 1)
  | 0x02 =>
    let code := par s 0x0818 inst
    if isZoomCode code then qAdd (zoomLatency s (code % 256)) (500, 1)
    else if isChanCode code then qAdd (ordNs s (code % 256) 135) (500, 1) else (0, 1)
  | 0x03 => (2000, 1)
  | 0x04 => (2000, 1)
  | 0x05 => (2000, 1)
  | 0x06 => qNat (par s 0x0805 sheet)
  | 0x08 => (10000, 1)
  | _ => (0, 1)

def sheetOf (s : State) (i : Nat) : Sheet := nth s.cue.sheets i {}

/-- The sheets that an image sends tasks to. -/
def sheetMasks (img : List Byte) : Nat :=
  (List.range (imgCues img)).foldl (fun m j => m ||| cueSheets (imgCue img j)) 0

/-- Two sheets are linked through a sheet mask, in either direction. -/
def linked (imgs : List (List Byte)) (a b : Nat) : Bool :=
  bit (sheetMasks (nth imgs a [])) b || bit (sheetMasks (nth imgs b [])) a

/-- The sheets reached from a set in one link. -/
def growGroup (imgs : List (List Byte)) (g : List Nat) : List Nat :=
  (List.range 8).filter (fun i => g.contains i || g.any (fun a => linked imgs a i))

/-- The group of a sheet. -/
def sheetGroup (imgs : List (List Byte)) (i : Nat) : List Nat :=
  (List.range 8).foldl (fun g _ => growGroup imgs g) [i]

/-- The input latency Λ of a sheet (R249, R250). -/
def inputLatency (s : State) (imgs : List (List Byte)) (i : Nat) : Q :=
  ((sheetGroup imgs i).flatMap (fun j =>
    (imgSources (nth imgs j [])).map (fun k => sourceLatency s j k.1 k.2) ++
    (List.range 8).filterMap (fun t => if par s 0x0808 (8 * j + t) % 65536 ≠ 0 then some ((2000, 1) : Q) else none))).foldl
    qMax (0, 1)

/-- The images of the loaded sheets. -/
def sheetImages (s : State) : List (List Byte) := s.cue.sheets.map (·.image)

/-- `cue.required_latency` of a sheet, in ns. -/
def requiredLatency (s : State) (imgs : List (List Byte)) (i : Nat) : Nat := qRound (qAdd (inputLatency s imgs i) (20000, 1))

/-- The outputs that an image can pulse. -/
def imageOutputs (img : List Byte) : Nat :=
  (List.range (imgCues img)).foldl (fun m j => m ||| (cueOuts (imgCue img j) % 16)) 0

/-- R250 fails: a sheet can pulse an output whose latency is below the sheet's required latency. -/
def latencyBroken (s : State) (imgs : List (List Byte)) : Bool :=
  (List.range 8).any (fun i =>
    (setBits 4 (imageOutputs (nth imgs i []))).any (fun o =>
      decide (par s 0x0830 o < requiredLatency s imgs i)))

/-- The channel that a condition source's ordinals belong to, where it has one (R223). -/
def sourceDomain (s : State) (kind inst : Nat) : Option Nat :=
  match kind with
  | 0x01 => some (srcChan s (par s 0x0702 (par s 0x0820 inst % 256)))
  | 0x02 =>
    let code := par s 0x0818 inst
    if code = 0 then none else some (srcChan s code)
  | _ => none

/-- R223 fails for a sheet at a `START` of the channels `cs`: a source lies in another domain than the cue channel's, of
another rate or not started with it. -/
def domainBroken (s : State) (cs : List Nat) (img : List Byte) : Bool :=
  (imgSources img).any (fun k => match sourceDomain s k.1 k.2 with
    | none => false
    | some c => decide (c ≠ cueChan s) && (decide (ordRate s c ≠ ordRate s (cueChan s)) || !cs.contains c))

end Sys2Proof.Machine
end

