-- ==== Sys2Proof/Machine/Density.lean ====
section
/-! DEFINITION. The density units: feeding, counting, passes, renders, palettes, lattice reads (R298 to R311, R321,
R322). -/
namespace Sys2Proof.Machine

def du (s : State) (u : Nat) : DensityUnit := nth s.dus u {}
def setDu (s : State) (u : Nat) (f : DensityUnit → DensityUnit) : State := { s with dus := lmod s.dus u f }

/-- Changes a DMA channel. -/
def setDma (s : State) (c : Nat) (f : DmaChannel → DmaChannel) : State :=
  { s with host := { s.host with chans := lmod s.host.chans c f } }
def dmaCh (s : State) (c : Nat) : DmaChannel := nth s.host.chans c {}

/-- Binds a channel to a user (R423). -/
def dmaBind (s : State) (c user owner : Nat) (fromHost : Bool) : State :=
  setDma s c (fun d => { d with user, owner, fromHost })

/-- A channel is bound to some user. -/
def dmaBound (s : State) (c : Nat) : Bool := decide ((dmaCh s c).user ≠ 0)

/-! ### Counting (R299 to R302) -/

/-- Adds to a cell, saturating; answers whether it saturated. -/
def addCell (cells : Tab Nat) (k v : Nat) : Tab Nat × Bool :=
  let n := tgetD cells k 0 + v
  if 2 ^ 32 ≤ n then (tput cells k (2 ^ 32 - 1), true) else (tput cells k n, false)

/-- The row of a value, or none where it counts nowhere (R300). -/
def duRow (s : State) (u v : Nat) : Option Nat :=
  let a := par s 0x0B07 u
  let step := Nat.max 1 (par s 0x0B08 u)
  let r := par s 0x0B03 u
  if v < a then (if par s 0x0B09 u = 0 then some 0 else none)
  else
    let k := (v - a) / step
    if k < r then some k else if par s 0x0B09 u = 0 then some (r - 1) else none

/-- The values of a column (R299). -/
def duValues (s : State) (u c : Nat) (pw : List Nat) : List Nat :=
  let g := par s 0x0B05 u
  let l := (pw.drop (par s 0x0B04 u + g * c)).take g
  if par s 0x0B06 u = 1 then l else [l.foldl Nat.max 0]

/-- Counts one value in a column. -/
def duValue (s : State) (u c v : Nat) (d : DensityUnit) : DensityUnit :=
  match duRow s u v with
  | none => { d with clipped := satU 64 (d.clipped + 1) }
  | some row =>
    let (cells, hit) := addCell d.cells (row * par s 0x0B02 u + c) d.incr
    { d with cells, lsat := d.lsat || hit }

/-- Clears the lattice (R302). -/
def duClearNow (d : DensityUnit) : DensityUnit :=
  { d with cells := [], ovr := false, stl := false, sat := false, lsat := false, n := 0, poisoned := false }

/-- Poison in what a unit reads (Table 13-4): the 16 cells of a line are taken as zero. Which line is a free value. -/
def duPoison (s : State) (u : Nat) : State :=
  let (a, s) := takeFree s
  setDu s u (fun d => { d with
    poisoned := true
    cells := d.cells.filter (fun c => decide (c.1 / 16 ≠ a % (par s 0x0B02 u * par s 0x0B03 u / 16 + 1))) })

/-! ### Maps and renders (R303 to R307) -/

/-- Whether threshold t_i is at or below a count (R304). -/
def thrAtOrBelow (s : State) (u i c : Nat) : Bool :=
  let l := par s 0x0B11 u
  let f := par s 0x0B0F u
  match par s 0x0B0E u with
  | 0 => decide (l + cdiv ((i - 1) * (f - l)) 1022 ≤ c)
  | 1 => decide (l ^ (1023 - i) * f ^ (i - 1) ≤ c ^ 1022)
  | _ => decide (tgetD (du s u).userMap i i ≤ c)

/-- The number of thresholds at or below a count, which do not fall as i rises. -/
def mapIndexAux (s : State) (u c : Nat) : Nat → Nat → Nat → Nat
  | 0, lo, _ => lo
  | f + 1, lo, hi =>
    if hi ≤ lo + 1 then lo else
    let m := (lo + hi) / 2
    if thrAtOrBelow s u m c then mapIndexAux s u c f m hi else mapIndexAux s u c f lo m

def mapIndex (s : State) (u c : Nat) : Nat := mapIndexAux s u c 11 0 1024

/-- A 10-bit colour as 8 bits: (v + 2) >> 2, saturated at 255. -/
def to8 (v : Nat) : Nat := Nat.min 255 ((v + 2) / 4)

/-- A palette entry in the render format (R307). -/
def renderPixel (fmt v : Nat) : Nat :=
  if fmt = 0 then v
  else 85 * (v / 2 ^ 30) * 2 ^ 24 + to8 (bits v 29 20) * 65536 + to8 (bits v 19 10) * 256 + to8 (bits v 9 0)

/-- The image of a lattice: line 0 first. -/
def renderImage (s : State) (u : Nat) (d : DensityUnit) : List Nat :=
  let cols := par s 0x0B02 u
  let rows := par s 0x0B03 u
  let pal := if d.active = 0 then d.palette0 else d.palette1
  (List.range rows).flatMap (fun y => (List.range cols).map (fun x =>
    let c := tgetD d.cells ((rows - 1 - y) * cols + x) 0
    renderPixel (par s 0x0B10 u) (tgetD pal (mapIndex s u c) 0)))

/-- The buffers that planes hold for the frame they show. -/
def latchedOf (s : State) (u : Nat) : List Nat :=
  (s.disps.flatMap (·.planes)).filterMap (fun p => if p.source = u + 1 then p.latched else none)

/-- Writes a render in the oldest buffer that qualifies (R307). -/
def writeRender (s : State) (u : Nat) (d : DensityUnit) : DensityUnit :=
  let held := latchedOf s u
  match d.order.find? (fun b => !held.contains b && decide (d.newest ≠ some b)) with
  | none => { d with skipped := satU 32 (d.skipped + 1) }
  | some b =>
    { d with
      buffers := lmod d.buffers b (fun _ => some { n := d.n, cols := par s 0x0B02 u, rows := par s 0x0B03 u,
                                                   format := par s 0x0B10 u, pixels := renderImage s u d })
      order := d.order.filter (fun x => x ≠ b) ++ [b], newest := some b, renderN := d.n }

/-- The fade of R303: cells that reach zero leave the table. -/
def fadeCells (f : Nat) (cells : Tab Nat) : Tab Nat :=
  cells.filterMap (fun c =>
    let v := (c.2 * f + 32768) / 65536
    if v = 0 then none else some (c.1, v))

/-- The lattice as `DU_LATTICE_READ` delivers it (R322). -/
def latticeBytes (s : State) (u : Nat) (d : DensityUnit) : List Byte :=
  let cols := par s 0x0B02 u
  let rows := par s 0x0B03 u
  let h := leBytes 8 d.n ++ leBytes 8 d.lastOrd ++ leBytes 2 (0x0700 + u) ++ leBytes 2 (par s 0x0B01 u) ++ leBytes 2 cols ++
    leBytes 2 rows ++ leBytes 1 d.dec ++
    leBytes 1 (b2n d.ovr + 2 * b2n d.stl + 4 * b2n d.sat + 8 * b2n d.lsat + 16 * b2n (d.tainted || d.poisoned)) ++ zeros 34
  h ++ leBytes 4 (crc32c h) ++ (List.range (rows * cols)).flatMap (fun k => leBytes 4 (tgetD d.cells k 0))

/-- RENDER_PASS (R303), after the lattice reads that wait for it. -/
def renderPass (s : State) (u : Nat) : State :=
  let d := du s u
  let bytes := latticeBytes s u d
  let s := d.reads.foldl (fun s c => setDma s c (fun x => { x with data := x.data ++ [(bytes, false, 0), ([], false, 0)] })) s
  setDu s u (fun d =>
    let d := writeRender s u { d with reads := [] }
    if par s 0x0B0B u = 1 then { d with cells := fadeCells d.fade d.cells } else d)

/-! ### FED_FRAME -/

/-- The pending changes that a frame with first input ordinal `ord` brings into force (R306). -/
def duDue (d : DensityUnit) (ord : Nat) : DensityUnit :=
  let d := if d.clearPend.any (fun c => c ≤ ord) then duClearNow d else d
  let d := (d.incrPend.filter (fun p => p.1 ≤ ord)).foldl (fun d p => { d with incr := p.2 }) d
  let d := (d.fadePend.filter (fun p => p.1 ≤ ord)).foldl (fun d p => { d with fade := p.2 }) d
  let d := match d.swapPend with
    | some c => if c ≤ ord then { d with active := 1 - d.active, swapPend := none } else d
    | none => d
  { d with clearPend := d.clearPend.filter (fun c => ord < c), incrPend := d.incrPend.filter (fun p => ord < p.1),
           fadePend := d.fadePend.filter (fun p => ord < p.1) }

/-- Counting is paused at an ordinal (R311). -/
def pausedAt (d : DensityUnit) (ord : Nat) : Bool :=
  d.pauses.any (fun p => decide (p.1 ≤ ord) && (match p.2 with
    | none => true
    | some r => decide (ord < r)))

/-- Counting is paused now: shed level 1 or higher. -/
def duPaused (d : DensityUnit) : Bool := d.pauses.any (fun p => p.2.isNone)

/-- Counts the oldest fed frame of a unit. -/
def countFrame (s : State) (u : Nat) : State :=
  match (du s u).queue with
  | [] => s
  | f :: rest =>
    let s := setDu s u (fun d => duDue { d with queue := rest } f.ord)
    let d := du s u
    if pausedAt d f.ord then setDu s u (fun d => { d with pausedFrames := satU 64 (d.pausedFrames + 1), tainted := true })
    else
      let s := setDu s u (fun d => { d with pauses := d.pauses.filter (fun p => decide (f.ord < p.2.getD (f.ord + 1))) })
      if bit f.flags 3 then setDu s u (fun d => { d with gapFrames := satU 32 (d.gapFrames + 1) })
      else
        let had := (du s u).lsat
        let s := setDu s u (fun d =>
          let d := (List.range (par s 0x0B02 u)).foldl (fun d c =>
            (duValues s u c f.pw).foldl (fun d v => duValue s u c v d) d) d
          { d with n := d.n + 1, lastOrd := f.ord, ovr := d.ovr || bit f.flags 0, stl := d.stl || bit f.flags 1,
                   sat := d.sat || bit f.flags 2, tainted := d.tainted || bit f.flags 6 })
        let chanOf := match duStream s u with
          | some n => srcChan s (par s 0x0702 n)
          | none => cueChan s
        let s := if (du s u).lsat && !had then raiseLatched s 0x0B02 u (du s u).n (some (chanOf, f.ord)) else s
        if (du s u).n % par s 0x0B0D u = 0 then renderPass s u else s

/-- FED_FRAME. -/
def execFedFrame (u : Fin 4) (s : State) : Host.Outcome State Fault Refusal :=
  .next (if stalled s 0x07 u then s else countFrame s u)

/-- The units that count a stream. -/
def dusOf (s : State) (n : Nat) : List Nat :=
  (fittedList s.variant 0x07).filter (fun u => (du s u).running && decide (duStream s u = some n))

/-- A frame reaches the units that count its stream; every 2^j-th is fed (R302). -/
def duFeed (s : State) (n : Nat) (f : FedFrame) : State :=
  (dusOf s n).foldl (fun s u =>
    if f.index % 2 ^ (du s u).dec = 0 then setDu s u (fun d => { d with queue := d.queue ++ [f] }) else s) s

/-- The queue of a unit is full: it withholds acknowledge (R310). -/
def duFull (s : State) (n : Nat) : Bool := (dusOf s n).any (fun u => decide (4096 ≤ (du s u).queue.length) || stalled s 0x07 u)

/-- A unit starts at START: cleared, its decimation fixed, waiting swaps in force (R302, R305, R309). -/
def duStart (s : State) (u : Nat) : State :=
  match duStream s u with
  | none => s
  | some n =>
    let j := (duDecimation s u n).getD 16
    let s := setDu s u (fun d =>
      let d := duClearNow d
      { d with
        running := true, dec := j, queue := [], incr := par s 0x0B0A u, fade := par s 0x0B0C u, incrPend := [], fadePend := [],
        clearPend := [], pauses := [], active := if d.swapAtStart then 1 - d.active else d.active, swapAtStart := false, swapPend := none,
        gapFrames := 0, clipped := 0, pausedFrames := 0, skipped := 0, tainted := false, lastOrd := 0 })
    if j = 0 then s else raise s 0x0B01 u j (some (srcChan s (par s 0x0702 n), 0))

/-- A unit's stream has stopped: what is queued is counted, and the unit stops. Changes that waited for a frame are in force. -/
def duStop (s : State) (u : Nat) : State :=
  if !(du s u).running then s else
  let s := (du s u).queue.foldl (fun s _ => countFrame s u) s
  setDu s u (fun d => { d with running := false, active := if d.swapPend.isSome then 1 - d.active else d.active, swapPend := none,
                               incr := par s 0x0B0A u, fade := par s 0x0B0C u, incrPend := [], fadePend := [], clearPend := [] })

/-! ### Commands (R321, R322) -/

/-- The load layout of R321. -/
def loadBad (lo table maxCount : Nat) (p : List Byte) : Bool :=
  let off := fld p 0 2
  let n := fld p 2 2
  decide (off < lo) || decide (n = 0) || decide (maxCount < n) || decide (table < off + n) || !zeroBytes p 4 4

def loadLen (p : List Byte) : Bool := decide (8 ≤ p.length) && decide (p.length = 8 + 4 * fld p 2 2)

/-- The entries of a load. -/
def loadEntries (p : List Byte) : List (Nat × Nat) :=
  (List.range (fld p 2 2)).map (fun i => (fld p 0 2 + i, fld p (8 + 4 * i) 4))

/-- Writes entries in a table, an unlisted one reading `d`. -/
def tputAll (t : Tab Nat) (l : List (Nat × Nat)) (d : Nat → Nat) : Tab Nat :=
  l.foldl (fun t e => if e.2 = d e.1 then tdel t e.1 else tput t e.1 e.2) t

/-- A palette swap of a unit is pending (R305). -/
def swapPending (s : State) (u : Nat) : Bool :=
  (du s u).swapPend.isSome || (du s u).swapAtStart || s.pend.any (fun c => decide (c.act = .duSwap u))

def busyIf (b : Bool) : Option OpState := if b then some .running else none

/-- The modes after BOOT except DORMANT and SAFE. -/
def notSafe : List Mode := [.idle, .analyse, .record, .watch, .service]

def specDuPaletteLoad : CmdSpec :=
  { opcode := 0x0B50, inst := .unit 0x07, modes := notSafe, len := loadLen,
    badParam := fun _ _ p _ => loadBad 0 1024 1018 p, held := fun s u _ => busyIf (swapPending s u) }

def runDuPaletteLoad (s : State) (_ : Packet) (u : Nat) (p : List Byte) (_ : Option Nat) : Ran :=
  (stOK, [], setDu s u (fun d =>
    if d.active = 0 then { d with palette1 := tputAll d.palette1 (loadEntries p) (fun _ => 0) }
    else { d with palette0 := tputAll d.palette0 (loadEntries p) (fun _ => 0) }))

def execDuPaletteLoad (p : Packet) (s : State) : Host.Outcome State Fault Refusal :=
  .next (runPacket specDuPaletteLoad runDuPaletteLoad p s)

/-- The cue channel of a unit: that of its stream's source (R306). -/
def duChan (s : State) (u : Nat) : Nat :=
  match duStream s u with
  | some n => srcChan s (par s 0x0702 n)
  | none => cueChan s

def specDuPaletteSwap : CmdSpec :=
  { opcode := 0x0B51, atOk := true, atModes := [.analyse, .record], inst := .unit 0x07, modes := [.idle, .analyse, .record, .service],
    chan := fun s u _ => [duChan s u], held := fun s u _ => busyIf (swapPending s u) }

def runDuPaletteSwap (s : State) (p : Packet) (u : Nat) (_ : List Byte) (at_ : Option Nat) : Ran :=
  match at_ with
  | some n => (stOK, [], schedule s p 0x0B51 (duChan s u) n (.duSwap u))
  | none =>
    if (du s u).running then
      let c := appliedOrd s (duChan s u)
      (stOK, appliedReply c, setDu s u (fun d => { d with swapPend := some c }))
    else (stOK, [], setDu s u (fun d => { d with swapAtStart := true }))

def execDuPaletteSwap (p : Packet) (s : State) : Host.Outcome State Fault Refusal :=
  .next (runPacket specDuPaletteSwap runDuPaletteSwap p s)

def specDuClear : CmdSpec :=
  { opcode := 0x0B52, atOk := true, inst := .unit 0x07, modes := [.analyse, .record], chan := fun s u _ => [duChan s u] }

def runDuClear (s : State) (p : Packet) (u : Nat) (_ : List Byte) (at_ : Option Nat) : Ran :=
  match at_ with
  | some n => (stOK, [], schedule s p 0x0B52 (duChan s u) n (.duClear u))
  | none =>
    if (du s u).running then
      let c := appliedOrd s (duChan s u)
      (stOK, appliedReply c, setDu s u (fun d => { d with clearPend := d.clearPend ++ [c] }))
    else (stOK, [], setDu s u duClearNow)

def execDuClear (p : Packet) (s : State) : Host.Outcome State Fault Refusal := .next (runPacket specDuClear runDuClear p s)

def specDuMapLoad : CmdSpec :=
  { opcode := 0x0B53, inst := .unit 0x07, modes := notSafe, len := loadLen, badState := fun s u _ => (du s u).running,
    badParam := fun _ _ p _ => loadBad 1 1024 1018 p }

def runDuMapLoad (s : State) (_ : Packet) (u : Nat) (p : List Byte) (_ : Option Nat) : Ran :=
  (stOK, [], setDu s u (fun d => { d with userMap := tputAll d.userMap (loadEntries p) (fun i => i) }))

def execDuMapLoad (p : Packet) (s : State) : Host.Outcome State Fault Refusal := .next (runPacket specDuMapLoad runDuMapLoad p s)

def specDuLatticeRead : CmdSpec :=
  { opcode := 0x0B54, inst := .unit 0x07, modes := [.analyse, .record], len := fun p => decide (p.length = 8),
    badParam := fun _ _ p _ => decide (32 ≤ fld p 0 1) || !zeroBytes p 1 7, held := fun s _ p => busyIf (dmaBound s (fld p 0 1)) }

def runDuLatticeRead (s : State) (_ : Packet) (u : Nat) (p : List Byte) (_ : Option Nat) : Ran :=
  let s := dmaBind s (fld p 0 1) 3 u false
  (stOK, [], setDu s u (fun d => { d with reads := d.reads ++ [fld p 0 1] }))

def execDuLatticeRead (p : Packet) (s : State) : Host.Outcome State Fault Refusal :=
  .next (runPacket specDuLatticeRead runDuLatticeRead p s)

/-- R304: a USER map that falls, or has an entry of 0. -/
def userMapBad (s : State) (u : Nat) : Bool :=
  (List.range 1023).any (fun i =>
    let v := tgetD (du s u).userMap (i + 1) (i + 1)
    decide (v = 0) || (decide (0 < i) && decide (v < tgetD (du s u).userMap i i)))

end Sys2Proof.Machine
end

