-- ==== Sys2Proof/Machine/Ports.lean ====
section
/-! DEFINITION. The input ports of the engines: records delivered to the programs that bind a source (R367, R368). -/
namespace Sys2Proof.Machine

/-- The engine numbered e changes. -/
def setEng (s : State) (e : Nat) (f : Engine → Engine) : State := { s with engines := tmod s.engines e {} f }

/-- Bytes waiting in a port. -/
def portBytes (p : InPort) : Nat := p.recs.foldl (fun a r => a + r.bytes.length) 0

/-- Port p of a program takes records of a source with this ordinal, until the engine has stopped for good. DESIGN CHOICE, see
assumption 65. -/
def portTakes (e : Engine) (p code ord : Nat) : Bool :=
  e.prog.ports.contains (p, code) && e.st ≠ .stopped && e.st ≠ .halted && e.st ≠ .gated && e.st ≠ .offline && decide ((nth e.ports p {}).bind ≤ ord)

/-- A record of a source reaches every port bound to it, and signal line 2 pends there (R377). -/
def portFeed (s : State) (code ord : Nat) (bytes : List Byte) (flags : Nat) : State :=
  { s with engines := s.engines.map (fun x => (x.1, (List.range 4).foldl (fun e p =>
      if portTakes e p code ord then
        { e with ports := lmod e.ports p (fun q => { q with recs := q.recs ++ [{ bytes, flags }] }), sigp := e.sigp ||| 4 }
      else e) x.2)) }

/-- A port bound to a source has no room for a record of n bytes: it withholds acknowledge (R368). -/
def portFull (s : State) (code ord n : Nat) : Bool :=
  s.engines.any (fun x => (List.range 4).any (fun p =>
    portTakes x.2 p code ord && decide (65536 < portBytes (nth x.2.ports p {}) + n)))

/-- A source stops: its ports return zero once they are empty, and signal line 3 pends when one is (R368). -/
def portStop (s : State) (code : Nat) (on : Bool) : State :=
  { s with engines := s.engines.map (fun x => (x.1, (List.range 4).foldl (fun e p =>
      if e.prog.ports.contains (p, code) then
        let q := nth e.ports p {}
        let e := { e with ports := lmod e.ports p (fun q => { q with stopped := on }) }
        if on && q.recs.isEmpty then { e with sigp := e.sigp ||| 8 } else e
      else e) x.2)) }

end Sys2Proof.Machine
end

