-- ==== Sys2Proof/Machine/Spectra.lean ====
section
/-! DEFINITION. Windows, block-floating spectra and PW16 (R202 to R204, R211). -/
namespace Sys2Proof.Machine

/-! ### PW16 (R203) -/

/-- p ≥ 10^((2v - 60,001) / 2,000): the power is p over 2^k, and its PW16 value is at least v. -/
def pw16AtLeast (p k v : Nat) : Bool := decide (10 ^ (2 * v) * 2 ^ (2000 * k) ≤ p ^ 2000 * 10 ^ 60001)

def pw16Search (p k : Nat) : Nat → Nat → Nat → Nat
  | 0, lo, _ => lo
  | f + 1, lo, hi =>
    if hi ≤ lo + 1 then lo else
    let m := (lo + hi) / 2
    if pw16AtLeast p k m then pw16Search p k f m hi else pw16Search p k f lo m

/-- The PW16 value of the power p over 2^k. -/
def pw16Power (p k : Nat) : Nat := if p = 0 then 0 else pw16Search p k 17 0 65536

/-- The PW16 value of |x|², x in the C24 scale. -/
def pw16Of (x : FlagIQ) : Nat := pw16Power (x.i * x.i + x.q * x.q).toNat 46

/-! ### Windows (R204) -/

/-- 2π in 2^-96. -/
def twoPi : Nat := 497805226624462170461043889244

/-- The Taylor sum of cos x: `t` is the term reached, in 2^-96, `j` its number; x² in 2^-96. -/
def cosTerms (x2 : Int) : Nat → Nat → Int → Int
  | 0, _, _ => 0
  | f + 1, j, t => t + cosTerms x2 f (j + 1) (-(t * x2 / 2 ^ 96) / (((2 * j + 1) * (2 * j + 2) : Nat) : Int))

/-- cos(2π k / n) in 2^-96, for a k in the first quarter of the circle. -/
def cosFirst (k n : Nat) : Int :=
  let x : Int := ((twoPi * k / n : Nat) : Int)
  cosTerms (x * x / 2 ^ 96) 24 0 (2 ^ 96)

/-- cos(2π k / n) in 2^-96, for an n that is a multiple of 4. -/
def cosTurn (k n : Nat) : Int :=
  let a := k % n
  let b := if n < 2 * a then n - a else a
  if 4 * b = n then 0 else if 4 * b < n then cosFirst b n else -(cosFirst (n / 2 - b) n)

/-- The a_m of the cosine sums, in 10^-9 (Table 7-1). -/
def cosineSum : Nat → List Int
  | 0 => [1000000000]
  | 1 => [500000000, 500000000]
  | 2 => [540000000, 460000000]
  | 3 => [358750000, 488290000, 141280000, 11680000]
  | _ => [215578950, 416631580, 277263158, 83578947, 6947368]

/-- A cosine-sum coefficient in 2^-17, rounded half up, before it is held as an unsigned number. -/
def cosineCoef (code len i : Nat) : Int :=
  let sum := ((cosineSum code).zipIdx).foldl (fun (a : Int) x =>
    if x.2 % 2 = 0 then a + x.1 * cosTurn (x.2 * i) len else a - x.1 * cosTurn (x.2 * i) len) 0
  divHalfUp (2 ^ 17 * sum) (1000000000 * 2 ^ 96)

/-- Coefficient i of a fixed or computed window: code, length, β, α. KAISER and GAUSS come from the routine of the reference
file; so does what an unsigned word holds of a cosine sum below zero, which the manual does not state. DESIGN CHOICE, see
assumption 65. -/
def windowTable (code len beta alpha i : Nat) : Nat :=
  let v := cosineCoef code len i
  if code ≤ 4 && decide (0 ≤ v) then v.toNat else Config.window code len beta alpha i % 2 ^ 18

/-! ### Block-floating spectra (R201, R202) -/

/-- A spectrum: exponent, mantissas, and the powers of its positions in 2^-512. -/
structure Spectrum where
  e      : Int
  bins   : List (Int × Int)
  powers : List Nat
  deriving DecidableEq, Repr

/-- The mantissa of a value in 2^-256 at exponent e, not below -128. -/
def mantissa (v e : Int) : Int := divHalfUp v (2 ^ (e + 233).toNat)

/-- The exponents, smallest first. -/
def exponents : List Int := (List.range 256).map (fun (k : Nat) => (k : Int) - 128)

/-- The exponent of R202: the smallest for which every rounded mantissa fits in 24 bits; -128 where all are zero. -/
def exponentOf (l : List (Int × Int)) : Int :=
  (exponents.find? (fun e => l.all (fun x => !satHit 24 (mantissa x.1 e) && !satHit 24 (mantissa x.2 e)))).getD 127

/-- The spectrum of one position or frame. The values X[p] of R201 are those of the reference file; inputs that are all zero
give zero. -/
def spectrumOf (ws : List Nat) (xs : List (Int × Int)) : Spectrum :=
  let l := if xs.all (fun x => decide (x = (0, 0))) then xs else (List.range xs.length).map (Config.xformValue ws xs)
  let e := exponentOf l
  { e, bins := l.map (fun x => (satS 24 (mantissa x.1 e), satS 24 (mantissa x.2 e)))
    powers := l.map (fun x => (x.1 * x.1 + x.2 * x.2).toNat) }

/-- The PW16 spectrum. -/
def pwOf (x : Spectrum) : List Nat := x.powers.map (fun p => pw16Power p 512)

end Sys2Proof.Machine
end

