-- ==== Sys2Proof/Machine/Streams.lean ====
section
/-! DEFINITION. The spectrum streams: source samples, marks, segments, frames, traces, records, and the mask
comparators (R193 to R221, R225 to R228). -/
namespace Sys2Proof.Machine

def stream (s : State) (n : Nat) : Stream := nth s.streams n {}
def setStream (s : State) (n : Nat) (f : Stream → Stream) : State := { s with streams := lmod s.streams n f }

/-- The source code of a stream, and its ordinal domain. -/
def xfSrc (s : State) (n : Nat) : Nat := xpar s 0x0702 n
def xfChan (s : State) (n : Nat) : Nat := srcChan s (xfSrc s n)

/-! ### Source indices and ordinals (R200) -/

/-- The aligned ordinal of a source's sample i, as whole ordinals and a fraction × 2^32. -/
def srcOrd (s : State) (code i : Nat) : Nat × Nat :=
  let st := srcStride s code
  let o := if isZoomCode code then (nth s.zooms (code % 256) {}).origin else 0
  (o + i * st.1 / st.2, (i * st.1 % st.2) * 2 ^ 32 / st.2)

/-- The smallest source index whose aligned ordinal is at or after c. -/
def srcIndexAt (s : State) (code c : Nat) : Nat :=
  let st := srcStride s code
  let o := if isZoomCode code then (nth s.zooms (code % 256) {}).origin else 0
  cdiv ((c - o) * st.2) st.1

/-- H in force. -/
def xfH (s : State) (n : Nat) : Nat := hopOf (xfN s n) (stream s n).hop

/-- P: positions of a record, 1 without records. -/
def xfP (s : State) (n : Nat) : Nat := if xfRa s n then xpar s 0x0722 n else 1

/-! ### Start and stop (R218 to R220) -/

/-- The settings that a stream takes at its start, by parameter. -/
def streamCfg (s : State) (n : Nat) : Tab Nat := xfKept.foldl (fun t id => tput t id (par s id n)) []

/-- A stream starts with s = `ord`. -/
def streamStart (s : State) (n ord : Nat) : State :=
  let hop := par s 0x0705 n
  let h := hopOf (xfN s n) hop
  let i0 := alignUp (srcIndexAt s (xfSrc s n) ord) h
  setStream s n (fun st => { st with
    running := true, shedStop := false, startOrd := ord, hop, segment := 0, frame := 0, segFrame := 0,
    base := if xfRa s n then srcIndexAt s (xfSrc s n) ord else i0, buf := [], origin := if xfRa s n then 0 else i0,
    forcedShed := false, forcedReplan := false, segNew := true, hops := [], stopAt := none,
    trace := [], traceLog := [], traceIdx := 0, marks := [], records := 0, lastMark := none, ignored := 0, gaps := [],
    sel := [(0, par s 0x0709 n, par s 0x070A n, par s 0x070B n)]
    evalAt := none, cfg := streamCfg s n, later := [], wait := [], waitMarks := [], waitGaps := []
    originOrd := if xfRa s n then 0 else (srcOrd s (xfSrc s n) i0).1 })

/-- A sample of a source reaches a running stream on it. -/
def streamPut (s : State) (n code idx : Nat) (x : FlagIQ) : State :=
  let st := stream s n
  if st.running && decide (xfSrc s n = code) && decide (st.base + st.buf.length = idx) then
    setStream s n (fun st => { st with buf := st.buf ++ [x] })
  else s

/-- Some turn of a stream that waits has a setting at a value. -/
def turnHas (st : Stream) (id v : Nat) : Bool := st.later.any (fun t => decide (tgetD t.cfg id 0 = v))

/-- Samples of a source reach its running streams, and are kept for turns that wait. -/
def streamFeed (s : State) (code idx : Nat) (x : FlagIQ) : State :=
  (List.range 16).foldl (fun s n =>
    let s := streamPut s n code idx x
    if turnHas (stream s n) 0x0702 code then setStream s n (fun st => { st with wait := st.wait ++ [(code, idx, x)] }) else s) s

/-! ### Record marks (R215 to R217) -/

/-- The index of a record mark's first sample. -/
def markIndex (s : State) (n ord : Nat) : Nat := srcIndexAt s (xfSrc s n) ord

/-- A mark reaches a record-aligned stream: an EV mark that comes too soon is ignored (R217). -/
def takeMark (s : State) (n ord : Nat) : State :=
  let st := stream s n
  let ev := decide (0x10 ≤ xpar s 0x0720 n)
  if ord < st.startOrd then s
  else
    let soon := ev && (match st.lastMark with
      | none => false
      | some m => decide ((ord - m) * xpar s 0x0723 n < ordRate s (cueChan s)))
    if soon then
      let s := setStream s n (fun st => { st with ignored := satU 32 (st.ignored + 1) })
      raiseLatched s 0x0702 n (stream s n).ignored (some (cueChan s, ord))
    else
      let k := markIndex s n ord
      setStream s n (fun st => { st with
        originOrd := if !ev && decide (st.records + st.marks.length = st.origin) then ord else st.originOrd
        marks := st.marks ++ [(ord, k)], lastMark := some ord })

/-- A mark of a source (1, 2: PG0, PG1; 0x10 + i: EVi) reaches every stream that names it. -/
def markStreams (s : State) (src ord : Nat) : State :=
  (List.range 16).foldl (fun s n =>
    let s := if (stream s n).running && decide (xpar s 0x0720 n = src) then takeMark s n ord else s
    if turnHas (stream s n) 0x0720 src then setStream s n (fun st => { st with waitMarks := st.waitMarks ++ [(src, ord)] }) else s) s

/-! ### Windows (R204, R205) -/

/-- Coefficient i of a stream's window. -/
def windowCoef (s : State) (n i : Nat) : Nat :=
  if xpar s 0x0706 n = 7 then tgetD (stream s n).user i 0
  else windowTable (xpar s 0x0706 n) (xfN s n) (xpar s 0x0707 n) (xpar s 0x0708 n) i

def windowOf (s : State) (n : Nat) : List Nat := (List.range (xfN s n)).map (windowCoef s n)

/-- R205: a USER window whose entries sum to zero. -/
def userWindowBad (s : State) (n : Nat) : Bool :=
  decide (par s 0x0706 n = 7) && ((stream s n).user.filter (fun e => e.1 < xfN s n)).all (fun e => e.2 = 0)

/-! ### The next frame -/

/-- The inputs of a position of the next frame, if all have come; a position is 0 without records. -/
def frameInputs (s : State) (n pos : Nat) : Option (List FlagIQ) :=
  let st := stream s n
  let len := xfN s n
  if xfRa s n then
    let first := st.origin + (st.frame - st.segFrame) * xfH s n - st.records
    let ms := (st.marks.drop first).take len
    if ms.length < len then none
    else
      let idx := ms.map (fun m => m.2 + xpar s 0x0721 n + pos)
      if idx.any (fun i => decide (st.base + st.buf.length ≤ i) || decide (i < st.base)) then none
      else some (idx.map (fun i => nth st.buf (i - st.base) { i := 0, q := 0 }))
  else
    let first := st.origin + (st.frame - st.segFrame) * xfH s n
    if st.base + st.buf.length < first + len then none else some ((st.buf.drop (first - st.base)).take len)

/-- The reference ordinal of the next frame, and the record field (R200, R216). -/
def frameRef (s : State) (n : Nat) : (Nat × Nat) × Nat :=
  let st := stream s n
  let first := st.origin + (st.frame - st.segFrame) * xfH s n
  if xfRa s n then (((nth st.marks (first - st.records) (0, 0)).1, 0), first)
  else (srcOrd s (xfSrc s n) first, 0)

/-- The evaluation ordinal of the next frame: the aligned ordinal of its last input. -/
def frameEval (s : State) (n : Nat) : Nat :=
  let st := stream s n
  let first := st.origin + (st.frame - st.segFrame) * xfH s n
  if xfRa s n then
    (srcOrd s (xfSrc s n) ((nth st.marks (first + xfN s n - 1 - st.records) (0, 0)).2 + xpar s 0x0721 n + xfP s n - 1)).1
  else (srcOrd s (xfSrc s n) (first + xfN s n - 1)).1

/-- The frame that would come next has its first mark, where the stream is record-aligned. -/
def frameMarked (s : State) (n : Nat) : Bool :=
  let st := stream s n
  !xfRa s n || decide (st.origin + (st.frame - st.segFrame) * xfH s n - st.records < st.marks.length)

/-- Inputs of a transform in the 24-bit scale: a channel's 18-bit samples are widened. -/
def toPairs (s : State) (n : Nat) (l : List FlagIQ) : List (Int × Int) :=
  if isZoomCode (xfSrc s n) then l.map (fun x => (x.i, x.q)) else l.map (fun x => (64 * x.i, 64 * x.q))

/-- The flag word of a frame (Table 7-2). -/
def frameFlags (s : State) (n : Nat) (l : List FlagIQ) : Nat :=
  let st := stream s n
  b2n (l.any (·.ovr)) + 2 * b2n (l.any (·.stl)) + 4 * b2n (l.any (·.sat)) + 8 * b2n (l.any (·.gap) || (s.tus.zipIdx).any (fun t => memErr s 0x03 t.2 && t.1.shares.any (fun x => decide (x.1 = n)))) +
    16 * b2n (paired s && decide (xfChan s n = 0)) + 32 * b2n (xfRa s n) + 64 * b2n (st.forcedShed || st.forcedReplan) +
    128 * b2n st.segNew + 512 * b2n (decide (0x10 ≤ xpar s 0x0720 n))

/-- The output kinds and positions in force for a frame whose first input has an ordinal (R219). -/
def streamSel (s : State) (n ord : Nat) : Nat × Nat × Nat :=
  match (stream s n).sel.find? (fun x => decide (x.1 ≤ ord)) with
  | some x => x.2
  | none => (par s 0x0709 n, par s 0x070A n, par s 0x070B n)

/-- A change of them at an ordinal. -/
def streamPick (s : State) (n ord : Nat) : State :=
  setStream s n (fun st => if st.running then
    { st with sel := (ord, par s 0x0709 n, par s 0x070A n, par s 0x070B n) :: st.sel.take 255 } else st)

/-- A frame record (Table 7-3). `frac` is zero unless the source is a resampled zoom. -/
def frameRecord (s : State) (n index : Nat) (ref : Nat × Nat) (flags kind e frames pos rec : Nat) (payload : List Byte) : List Byte :=
  let st := stream s n
  let len := xfN s n
  let (_, first, count) := streamSel s n ref.1
  let b := if count = 0 then len - first else count
  let h := leBytes 8 index ++ leBytes 8 ref.1 ++
    leBytes 4 (if isZoomCode (xfSrc s n) && zoomRs s (xfSrc s n % 256) then ref.2 else 0) ++ leBytes 2 (0x0300 + n) ++
    leBytes 2 (xfSrc s n) ++ leBytes 2 flags ++ leBytes 1 kind ++ leBytes 1 e ++ leBytes 1 (xpar s 0x0704 n) ++ leBytes 1 st.hop ++
    leBytes 2 st.segment ++ leBytes 4 first ++ leBytes 4 b ++ leBytes 4 frames ++ leBytes 4 pos ++ leBytes 8 rec ++ zeros 4
  h ++ leBytes 4 (crc32c (h ++ payload)) ++ padTo ((payload.length + 63) / 64 * 64) payload

/-- The selected positions of a list (R210). -/
def selectBins {α : Type} (s : State) (n ord : Nat) (l : List α) : List α :=
  let (_, first, count) := streamSel s n ord
  if count = 0 then l.drop first else (l.drop first).take count

def pwBytes (l : List Nat) : List Byte := l.flatMap (leBytes 2)

/-! ### Mask comparators (R225, R228) -/

/-- The comparators that take the frames (kind 0) or traces (kind 1) of a stream. -/
def masksOf (s : State) (n kind : Nat) : List Nat :=
  (List.range 16).filter (fun m => decide (par s 0x0820 m = 0x0300 + n) && decide (par s 0x0821 m = kind))

/-- A waiting swap that the frames from an ordinal on bring into force. -/
def maskDue (m : Mask) (ord : Nat) : Mask :=
  match m.swapAt with
  | some c => if c ≤ ord then { m with active := 1 - m.active, swapAt := none } else m
  | none => m

/-- The hit positions of a comparator on a spectrum, from the range's first. -/
def maskHits (s : State) (m : Nat) (pw : List Nat) : List Nat :=
  let k := nth s.cue.masks m {}
  let up := if k.active = 0 then k.upper0 else k.upper1
  let lo := if k.active = 0 then k.lower0 else k.lower1
  let mode := par s 0x0824 m
  (List.range (par s 0x0823 m)).filter (fun i =>
    let v := nth pw (par s 0x0822 m + i) 0
    (bit mode 0 && decide (tgetD up i 65535 < v)) || (bit mode 1 && decide (v < tgetD lo i 0)))

/-- MASK_ITEM: one item of a comparator (R225). -/
def maskItem (s : State) (m : Nat) (firstOrd evalOrd flags : Nat) (pw : List Nat) : State :=
  let s := { s with cue := { s.cue with masks := lmod s.cue.masks m (fun k => maskDue k firstOrd) } }
  let hits := if bit flags 3 then [] else maskHits s m pw
  let hit := decide (par s 0x0825 m ≤ hits.length)
  let fl := flags % 16 + 16 * b2n (bit flags 6 || bit flags 9)
  let item : Item := { kind := 0x01, inst := m, ord := evalOrd, level := if hit then 1 else 0, hits := hits.length,
                       firstHit := par s 0x0822 m + hits.head?.getD 0, flags := fl }
  { s with cue := { s.cue with arriving := s.cue.arriving ++ [item] } }

/-- A comparator's buffer holds 4,096 items (R245). -/
def maskFull (s : State) (n : Nat) : Bool :=
  (masksOf s n 0 ++ masksOf s n 1).any (fun m =>
    decide (4096 ≤ (s.cue.arriving.filter (fun i => decide (i.kind = 1) && decide (i.inst = m))).length))

/-- A swap that waits for frames which a stopping stream does not bring governs what comes after it (R228). -/
def masksSettle (s : State) (n : Nat) : State :=
  (masksOf s n 0 ++ masksOf s n 1).foldl (fun s m =>
    { s with cue := { s.cue with masks := lmod s.cue.masks m (fun k =>
      if k.swapAt.isSome then { k with active := 1 - k.active, swapAt := none } else k) } }) s

/-- The CLEAR item of R226, at the evaluation ordinal of a stream's last frame plus 1. -/
def maskClear (s : State) (n evalOrd : Nat) : State :=
  (masksOf s n 0 ++ masksOf s n 1).foldl (fun s m =>
    { s with cue := { s.cue with arriving := s.cue.arriving ++ [{ kind := 0x01, inst := m, ord := evalOrd + 1 }] } }) s

/-! ### Delivering records -/

/-- A frame or trace record reaches capture units and engines. A reduced unit takes PW16 frames into its group (R267). -/
def deliverRecord (s : State) (n ord index flags kind : Nat) (bytes : List Byte) (selected : Bool) : State :=
  let s := (capsOf s (0x0300 + n)).foldl (fun s u =>
    let s := if kind = 2 then s else stepFrame s u ord index
    if (cap s u).step = 0 || kind = 2 then
      if selected then pushItem s u { typ := 0x12, ord, last := ord, index, body := bytes, flags := flags % 16 } else s
    else if kind = 1 then
      let s := setCap s u (fun c => { c with group := c.group ++ [bytes] })
      if (cap s u).group.length = 2 ^ (cap s u).step * xfP s n then groupEnd s u false else s
    else s) s
  if selected then portFeed s (0x0300 + n) ord bytes (flags % 16) else s

/-- The smallest index, of a source sample or of a record whose mark has come, at or after ordinal c. -/
def posAt (s : State) (n c : Nat) : Nat :=
  let st := stream s n
  if xfRa s n then st.records + (st.marks.takeWhile (fun m => decide (m.1 < c))).length else srcIndexAt s (xfSrc s n) c

/-- Source indices lo to hi are among the inputs of a record at index i. -/
def recordMeets (s : State) (n lo hi i : Nat) : Bool :=
  decide (i + xpar s 0x0721 n ≤ hi) && decide (lo < i + xpar s 0x0721 n + xfP s n)

/-- The next frame has an input among source indices lo to hi. -/
def frameMeets (s : State) (n lo hi : Nat) : Bool :=
  let st := stream s n
  let first := st.origin + (st.frame - st.segFrame) * xfH s n
  if xfRa s n then ((st.marks.drop (first - st.records)).take (xfN s n)).any (fun m => recordMeets s n lo hi m.2)
  else decide (first ≤ hi) && decide (lo < first + xfN s n)

/-- The last frame with an input at or below position `hi` (a source index or a record number), in the segment that begins at
`origin` with frame `k`, and in those that follow. -/
def lastFrame (s : State) (n hi : Nat) : Nat → Nat → Nat → List HopChange → Nat
  | origin, k, h, [] =>
    let m := (hi - origin) / h
    match (stream s n).stopAt with
    | none => k + m
    | some c => k + Nat.min m (cdiv (posAt s n c - origin) h - 1)
  | origin, k, h, x :: rest =>
    let b := posAt s n x.ord
    let m := cdiv (b - origin) h
    let h' := hopOf (xfN s n) x.hop
    let o := if x.atMark then b else alignUp b h'
    if hi < o then k + Nat.min ((hi - origin) / h) (m - 1) else lastFrame s n hi o (k + m) h' rest

/-- The last frame that a gap of source indices lo to hi affects. For a record-aligned stream the records are those whose marks
have come. DESIGN CHOICE, see assumption 65. -/
def gapLastFrame (s : State) (n lo hi : Nat) : Nat :=
  let st := stream s n
  let top := if xfRa s n then
      match (st.marks.zipIdx.filter (fun x => recordMeets s n lo hi x.1.2)).getLast? with
      | some x => st.records + x.2
      | none => 0
    else hi
  Nat.max st.frame (lastFrame s n top st.origin st.segFrame (xfH s n) st.hops)

/-- The reference ordinal of frame k of the segment in progress, where it is known. -/
def frameOrd (s : State) (n k : Nat) : Nat :=
  let st := stream s n
  let i := st.origin + (k - st.segFrame) * xfH s n
  if xfRa s n then (nth st.marks (i - st.records) (st.marks.getLast?.getD (0, 0))).1 else (srcOrd s (xfSrc s n) i).1

/-- The gap markers that come before the next frame's record: those of the gaps that it is the first to meet (R207). -/
def frameMarkers (s : State) (n : Nat) : State :=
  let st := stream s n
  let due := st.gaps.filter (fun g => frameMeets s n g.first g.last)
  let s := setStream s n (fun st => { st with gaps := st.gaps.filter (fun g => !frameMeets s n g.first g.last && decide (st.base ≤ g.last)) })
  due.foldl (fun s g =>
    let l := gapLastFrame s n g.first g.last
    capGap s (0x0300 + n) { g.marker with first := st.frame, last := l } (frameOrd s n st.frame) (frameOrd s n l)) s

/-! ### Traces (R211) -/

/-- What a trace keeps of one position of a frame: PW16 values, or for AVG the powers. -/
def traceFrame (det : Nat) (x : Spectrum) : List Int :=
  if det = 3 then x.powers.map Int.ofNat else (pwOf x).map Int.ofNat

/-- The PW16 values of a trace of one position, from its frames (R211). -/
def traceValues (det : Nat) (fs : List (List Int)) : List Nat :=
  match fs with
  | [] => []
  | f :: rest =>
    match det with
    | 1 => (rest.foldl (fun a g => List.zipWith max a g) f).map Int.toNat
    | 2 => (rest.foldl (fun a g => List.zipWith min a g) f).map Int.toNat
    | 3 => (List.range f.length).map (fun i =>
        pw16Power (Config.meanPower ((f :: rest).map (fun g => (nth g i 0).toNat))) 512)
    | _ => ((f :: rest).getLast?.getD f).map Int.toNat

/-- The values of position p in a kept frame of P positions. -/
def tracePart (P p : Nat) (f : List Int) : List Int :=
  let w := f.length / Nat.max 1 P
  (f.drop (w * p)).take w

/-- Emits the trace in progress of a stream at the evaluation ordinal of its last frame; `short` for one cut short. Its kept
facts are its frames' reference ordinals and flags; the first frame's are the trace's. -/
def traceEmit (s : State) (n : Nat) (short : Bool) : State :=
  let st := stream s n
  if st.trace.isEmpty then s else
  let P := xfP s n
  let flags := st.traceLog.foldl (fun f x => f ||| x.2.2) 0 ||| (if short then 0x0100 else 0)
  let x := nth st.traceLog 0 (0, 0, 0)
  let ref := x.1
  let evalOrd := st.evalAt.getD ref
  let t := st.traceIdx
  let s := setStream s n (fun st => { st with trace := [], traceLog := [], traceIdx := t + 1 })
  (List.range P).foldl (fun s p =>
    let pw := traceValues (xpar s 0x070C n) (st.trace.map (tracePart P p))
    let bytes := frameRecord s n t (ref, x.2.1) flags 2 0 st.trace.length (if xfRa s n then xpar s 0x0721 n + p else 0) 0
      (pwBytes (selectBins s n ref pw))
    let s := deliverRecord s n ref t flags 2 bytes (bit (streamSel s n ref).1 2)
    if p = 0 then (masksOf s n 1).foldl (fun s m => maskItem s m ref evalOrd flags pw) s else s) s

/-! ### FRAME_RECORD -/

/-- Where the segment of a hop change begins: at the first mark at or after its ordinal (R216), else at the smallest multiple of
the new hop there (R221). -/
def segmentOrigin (s : State) (n : Nat) (x : HopChange) : Nat :=
  if x.atMark then posAt s n x.ord else alignUp (posAt s n x.ord) (hopOf (xfN s n) x.hop)

/-- The next frame has reached the first hop change waiting. -/
def segmentAsked (s : State) (n : Nat) : Bool :=
  match (stream s n).hops with
  | [] => false
  | x :: _ => frameMarked s n && decide (x.ord ≤ (frameRef s n).1.1)

/-- The first frame of the new segment is known: a record-aligned stream has its first mark. -/
def segmentKnown (s : State) (n : Nat) (x : HopChange) : Bool :=
  !xfRa s n || decide (segmentOrigin s n x < (stream s n).records + (stream s n).marks.length)

/-- The first hop change waiting, once the next frame has reached its ordinal, begins a segment (R221). -/
def segmentOne (s : State) (n : Nat) : State :=
  let st := stream s n
  match st.hops with
  | [] => s
  | x :: rest =>
    if !segmentAsked s n || !segmentKnown s n x then s
    else
      let s := traceEmit s n true
      let o := segmentOrigin s n x
      let s := setStream s n (fun st => { st with
        hop := x.hop, forcedShed := x.shed, forcedReplan := x.replan, hops := rest, segment := (st.segment + 1) % 2 ^ 32
        origin := o, segFrame := st.frame, segNew := true })
      let s := if decide (0x10 ≤ xpar s 0x0720 n) then s
        else setStream s n (fun st => { st with originOrd := frameOrd s n st.frame })
      raise s 0x0701 n (x.hop + 4 * b2n (x.shed || x.replan)) (some (xfChan s n, (frameRef s n).1.1))

/-- Every hop change waiting whose ordinal the next frame has reached. -/
def segmentDue (s : State) (n : Nat) : State :=
  (stream s n).hops.foldl (fun s _ => segmentOne s n) s

/-- The hop a stream is to run at now (R221, R486): the configured hop, one longer for each reduction in force on the
stream, and at most N/2 at shed level 3. -/
def hopWanted (s : State) (n : Nat) : Nat × Bool × Bool :=
  let cfg := par s 0x0705 n
  let k := (s.health.reductions.filter (fun r => decide (r.order ≠ 1) && decide (r.code = 0x0300 + n))).length
  let shed := decide (3 ≤ s.md.level) && decide (2 ≤ cfg - k)
  (if shed then 1 else cfg - k, shed, decide (0 < k))

/-- Schedules the hop that a running stream is to run at, from an applied ordinal on, where it is another than the one
it is to run at already. -/
def hopForce (s : State) (n ord : Nat) : State :=
  let st := stream s n
  let (hop, shed, replan) := hopWanted s n
  let last := st.hops.getLast?.getD { ord, hop := st.hop, shed := st.forcedShed, replan := st.forcedReplan }
  if !st.running || st.stopAt.isSome || (decide (last.hop = hop) && decide (last.shed = shed) && decide (last.replan = replan)) then s
  else setStream s n (fun st => { st with hops := st.hops ++ [{ ord, hop, shed, replan }] })

/-- Drops source samples and marks that no later frame needs. Those of the last frame's hop stay: a new segment may begin
there. -/
def streamTrim (s : State) (n : Nat) : State :=
  let st := stream s n
  let h := xfH s n
  let from_ := st.origin + (st.frame - st.segFrame) * h + 1 - h
  if xfRa s n then
    let k := Nat.min (from_ - st.records) st.marks.length
    let marks := st.marks.drop k
    let keep := match marks.head? with
      | some m => m.2
      | none => st.base
    setStream s n (fun st => { st with
      marks, records := st.records + k, buf := st.buf.drop (keep - st.base), base := Nat.max st.base keep })
  else
    setStream s n (fun st => { st with buf := st.buf.drop (from_ - st.base), base := Nat.max st.base (Nat.min from_ (st.base + st.buf.length)) })

/-- One record of the next frame: a position's spectrum as one kind. -/
def framePart (s : State) (n idx flags kind : Nat) (ref : Nat × Nat) (rec : Nat) (x : Spectrum × Nat) : State :=
  let pos := if xfRa s n then xpar s 0x0721 n + x.2 else 0
  let body := if kind = 0 then (selectBins s n ref.1 x.1.bins).flatMap (fun m => leInt 3 m.1 ++ leInt 3 m.2)
    else pwBytes (selectBins s n ref.1 (pwOf x.1))
  deliverRecord s n ref.1 idx flags kind
    (frameRecord s n idx ref flags kind (if kind = 0 then uns 8 x.1.e else 0) 1 pos rec body) (bit (streamSel s n ref.1).1 kind)

/-- Delivers the next frame of a stream, whose inputs have come (R201 to R211): its C24 records in ascending position, then its
PW16 records (R210). -/
def frameEmit (s : State) (n : Nat) : State :=
  let (ref, rec) := frameRef s n
  let evalOrd := frameEval s n
  let idx := (stream s n).frame
  let s := frameMarkers s n
  let ws := windowOf s n
  let det := xpar s 0x070C n
  let poss := (List.range (xfP s n)).map (fun p => (frameInputs s n p).getD [])
  let flags := frameFlags s n poss.flatten
  let specs := (poss.map (fun l => spectrumOf ws (toPairs s n l))).zipIdx
  let s := specs.foldl (fun s x => framePart s n idx flags 0 ref rec x) s
  let s := specs.foldl (fun s x => framePart s n idx flags 1 ref rec x) s
  let s := match specs.head? with
    | none => s
    | some x =>
      let s := (masksOf s n 0).foldl (fun s m => maskItem s m ref.1 evalOrd flags (pwOf x.1)) s
      duFeed s n { index := idx, ord := ref.1, flags, pw := pwOf x.1 }
  let s := if det = 0 then s else
    setStream s n (fun st => { st with
      trace := st.trace ++ [specs.flatMap (fun x => traceFrame det x.1)], traceLog := st.traceLog ++ [(ref.1, ref.2, flags)] })
  let s := setStream s n (fun st => { st with evalAt := some evalOrd, frame := st.frame + 1, segNew := false })
  let s := if det ≠ 0 && decide ((stream s n).trace.length = 2 ^ xpar s 0x070D n) then traceEmit s n false else s
  streamTrim s n

/-- The evaluation ordinal of the last frame delivered. -/
def lastEval (s : State) (n : Nat) : Nat := (stream s n).evalAt.getD (stream s n).startOrd

/-- A stream stops: its trace ends PARTIAL, its comparators deliver CLEAR, its density units stop (R211, R219, R220, R226). -/
def streamEnd (s : State) (n : Nat) (shed : Bool) : State :=
  if !(stream s n).running then s else
  let s := traceEmit s n true
  let s := masksSettle (maskClear s n (lastEval s n)) n
  let s := setStream s n (fun st => { st with running := false, shedStop := shed, hops := [], stopAt := none,
                                              buf := [], marks := [], gaps := [] })
  let s := (fittedList s.variant 0x07).foldl (fun s u => if duStream s u = some n then duStop s u else s) s
  portStop s (0x0300 + n) true

/-- What stands in the way of a frame: a full buffer downstream (R17, R245, R310, R368). -/
def frameHeld (s : State) (n : Nat) : Bool :=
  (s.tus.zipIdx).any (fun t => stalled s 0x03 t.2 && t.1.shares.any (fun x => decide (x.1 = n))) ||
  capBlocked s (0x0300 + n) || maskFull s n || duFull s n || portFull s (0x0300 + n) (frameRef s n).1.1 (64 + 6 * xfN s n)

/-- Every input of the next frame has come. -/
def frameReady (s : State) (n : Nat) : Bool := (List.range (xfP s n)).all (fun p => (frameInputs s n p).isSome)

/-- A running stream of a source withholds acknowledge: a whole frame waits for room downstream (R17). -/
def streamHolds (s : State) (code : Nat) : Bool :=
  (List.range 16).any (fun n => (stream s n).running && decide (xfSrc s n = code) && frameMarked s n && frameReady s n && frameHeld s n)

/-- No further mark below an ordinal can come: the cue channel has reached it. An edge or pulse reported after that is taken as
one after it. DESIGN CHOICE, see assumption 65. -/
def marksPast (s : State) (c : Nat) : Bool := decide (c ≤ ordNext s (cueChan s))

/-- The stream has delivered every frame below its disable. -/
def streamDone (s : State) (n : Nat) : Bool :=
  match (stream s n).stopAt with
  | none => false
  | some c => if frameMarked s n then decide (c ≤ (frameRef s n).1.1) else marksPast s c

/-- One attempt to deliver the next frame: its inputs must have come, and its consumers have room; at a stop they take it
anyhow. DESIGN CHOICE, see assumption 65: R220 has every whole frame emitted. -/
def frameTry (s : State) (n : Nat) (stopping : Bool) : Option State :=
  if !(stream s n).running then none else
  let s := segmentDue s n
  if !frameMarked s n || streamDone s n || segmentAsked s n then none
  else if frameHeld s n && !stopping then none
  else if frameReady s n then some (frameEmit s n)
  else none

/-- Delivers every frame that its inputs allow, of a stream that stops. -/
def drainStream : Nat → Nat → State → State
  | 0, _, s => s
  | f + 1, n, s =>
    match frameTry s n true with
    | none => s
    | some s' => drainStream f n s'

/-! ### What a start of a stream starts, and its turns (R113, R218, R219) -/

/-- An enabled, fitted stream. -/
def streamSet (s : State) (n : Nat) : Bool := fitted s.variant 0x03 n && decide (par s 0x0701 n = 1)

/-- A unit that counts an enabled stream. -/
def duSet (s : State) (u : Nat) : Option Nat :=
  match duStream s u with
  | some n => if fitted s.variant 0x07 u && !isOffline s 0x07 u && streamSet s n then some n else none
  | none => none

/-- An enabled capture unit in service. -/
def capSet (s : State) (u : Nat) : Bool := decide (par s 0x0901 u = 1) && !isOffline s 0x08 u

/-- The enabled capture units of a source that has started. -/
def startCaps (s : State) (code ord : Nat) : State :=
  ((List.range 16).filter (fun u => capSet s u && decide (capSrc s u = code))).foldl (fun s u =>
    if (cap s u).running then s else capStartUnit s u ord) s

/-- A stream starts, and with it the units that take its records and the density units that count it. -/
def startStream (s : State) (n ord : Nat) : State :=
  let s := hopForce (portStop (streamStart s n ord) (0x0300 + n) false) n ord
  let s := startCaps s (0x0300 + n) ord
  (List.range 4).foldl (fun s u => if duSet s u = some n && !(du s u).running then
      let s := duStart s u
      if 1 ≤ s.md.level then setDu s u (fun d => { d with pauses := [(ord, none)], tainted := true }) else s
    else s) s

/-- A gap marker of a source reaches a stream: the frames whose inputs' spans include a lost ordinal will follow it (R207). For a channel the
input spans are those of R132; for a zoom the marker is in zoom indices. -/
def streamMarker (s : State) (n code : Nat) (m : GapMarker) : State :=
  let st := stream s n
  let s := if turnHas st 0x0702 code then setStream s n (fun st => { st with waitGaps := st.waitGaps ++ [(code, m)] }) else s
  if !st.running || decide (xfSrc s n ≠ code) then s else
  let lo := if isZoomCode code then m.first else cdiv (m.first - 24) 2
  let hi := if isZoomCode code then m.last else (m.last + 24) / 2
  if hi < lo || decide (hi < st.base) then s
  else setStream s n (fun st => { st with gaps := st.gaps ++ [{ first := lo, last := hi, marker := m }] })

/-- Poison in the staging region (Table 13-4): values of some stream's line are taken as zero, and the frames that they reach carry
GAP. Which stream, and which of its values, are free values. -/
def stagePoison (s : State) : State :=
  let (a, s) := takeFree s
  let (b, s) := takeFree s
  let (c, s) := takeFree s
  let l := (List.range s.streams.length).filter (fun n => !(stream s n).buf.isEmpty)
  if l.isEmpty then s
  else setStream s (nth l (a % l.length) 0) (fun st =>
    let at_ := b % st.buf.length
    let k := 1 + c % 16
    { st with buf := st.buf.take at_ ++ ((st.buf.drop at_).take k).map (fun x => { x with i := 0, q := 0, gap := true }) ++
                     st.buf.drop (at_ + k) })

/-- The next turn of a stream begins, with what was kept for it. -/
def streamTurn (s : State) (n : Nat) : State :=
  let old := stream s n
  match old.later with
  | [] => s
  | t :: rest =>
    let s := setStream s n (fun st => { st with running := true, stopAt := some 0, cfg := t.cfg })
    let s := setStream (startStream s n t.at_) n (fun st => { st with cfg := t.cfg, stopAt := t.stop, sel := old.sel })
    let s := old.waitGaps.foldl (fun s m => streamMarker s n m.1 m.2) s
    let s := old.wait.foldl (fun s x => streamPut s n x.1 x.2.1 x.2.2) s
    let s := old.waitMarks.foldl (fun s m => if xpar s 0x0720 n = m.1 then takeMark s n m.2 else s) s
    setStream s n (fun st => if rest.isEmpty then st else
      { st with later := rest, wait := old.wait, waitMarks := old.waitMarks, waitGaps := old.waitGaps })

/-- FRAME_RECORD: the next frame of a stream, once its inputs have come, or the end of one whose frames a disable leaves are
all out, with the next turn. -/
def execFrameRecord (n : Fin 16) (s : State) : Host.Outcome State Fault Refusal :=
  .next (match frameTry s n false with
    | some t => t
    | none =>
      let s := segmentDue s n
      if (stream s n).running && streamDone s n then streamTurn (streamEnd s n false) n else s)

/-- A stream's source has stopped, or shedding stops it: every whole frame of every turn is emitted, then the stream stops
(R220). -/
def streamHalt (s : State) (n : Nat) (shed : Bool) : State :=
  if !(stream s n).running then s else
  let go := fun (s : State) => streamEnd (drainStream ((stream s n).buf.length + (stream s n).marks.length + 2) n s) n shed
  (List.range (stream s n).later.length).foldl (fun s _ => go (streamTurn s n)) (go s)

/-! ### Window and mask commands (R205, R256) -/

def winBad (p : List Byte) : Bool :=
  decide (fld p 4 2 = 0) || decide (1018 < fld p 4 2) || decide (2 ^ 20 < fld p 0 4 + fld p 4 2) || !zeroBytes p 6 2

def specXfWindowLoad : CmdSpec :=
  { opcode := 0x0710, inst := .unit 0x03, modes := notSafe,
    len := fun p => decide (8 ≤ p.length) && decide (p.length = 8 + 4 * fld p 4 2),
    badState := fun s n _ => (stream s n).running,
    badParam := fun _ _ p _ => winBad p || (List.range (fld p 4 2)).any (fun i => decide (2 ^ 18 ≤ fld p (8 + 4 * i) 4)) }

def runXfWindowLoad (s : State) (_ : Packet) (n : Nat) (p : List Byte) (_ : Option Nat) : Ran :=
  let l := (List.range (fld p 4 2)).map (fun i => (fld p 0 4 + i, fld p (8 + 4 * i) 4))
  (stOK, [], setStream s n (fun st => { st with user := tputAll st.user l (fun _ => 0) }))

def execXfWindowLoad (p : Packet) (s : State) : Host.Outcome State Fault Refusal :=
  .next (runPacket specXfWindowLoad runXfWindowLoad p s)

def specXfWindowRead : CmdSpec :=
  { opcode := 0x0711, inst := .unit 0x03, len := fun p => decide (p.length = 8), badParam := fun _ _ p _ => winBad p }

def runXfWindowRead (s : State) (_ : Packet) (n : Nat) (p : List Byte) (_ : Option Nat) : Ran :=
  (stOK, p.take 8 ++ (List.range (fld p 4 2)).flatMap (fun i => leBytes 4 (tgetD (stream s n).user (fld p 0 4 + i) 0)), s)

def execXfWindowRead (p : Packet) (s : State) : Host.Outcome State Fault Refusal :=
  .next (runPacket specXfWindowRead runXfWindowRead p s)

/-- A swap of a comparator is pending (R228). -/
def maskPending (s : State) (m : Nat) : Bool :=
  let k := nth s.cue.masks m {}
  k.swapAt.isSome || k.swapAtStart || s.pend.any (fun c => decide (c.act = .maskSwap m))

/-- The stream of a comparator. -/
def maskStream (s : State) (m : Nat) : Nat := par s 0x0820 m % 256

def maskBad (top : Nat) (p : List Byte) : Bool :=
  decide (top ≤ fld p 0 1) || decide (fld p 1 1 ≠ 0) || decide (fld p 2 2 = 0) || decide (2036 < fld p 2 2) ||
  decide (65536 < fld p 4 4 + fld p 2 2)

def specMaskLoad : CmdSpec :=
  { opcode := 0x0852, inst := .below 16, modes := notSafe,
    len := fun p => decide (8 ≤ p.length) && decide (p.length = 8 + 2 * fld p 2 2),
    badParam := fun _ _ p _ => maskBad 2 p, held := fun s m _ => busyIf (maskPending s m) }

/-- `MASK_LOAD` writes the shadow buffer only (R228). -/
def runMaskLoad (s : State) (_ : Packet) (m : Nat) (p : List Byte) (_ : Option Nat) : Ran :=
  let l := (List.range (fld p 2 2)).map (fun i => (fld p 4 4 + i, fld p (8 + 2 * i) 2))
  let up := fun t => tputAll t l (fun _ => 65535)
  let lo := fun t => tputAll t l (fun _ => 0)
  (stOK, [], { s with cue := { s.cue with masks := lmod s.cue.masks m (fun k =>
    if k.active = 0 then (if fld p 0 1 = 0 then { k with upper1 := up k.upper1 } else { k with lower1 := lo k.lower1 })
    else (if fld p 0 1 = 0 then { k with upper0 := up k.upper0 } else { k with lower0 := lo k.lower0 })) } })

def execMaskLoad (p : Packet) (s : State) : Host.Outcome State Fault Refusal := .next (runPacket specMaskLoad runMaskLoad p s)

def specMaskSwap : CmdSpec :=
  { opcode := 0x0853, atOk := true, atModes := [.analyse, .record], inst := .below 16, modes := [.idle, .analyse, .record, .service],
    chan := fun s m _ => [xfChan s (maskStream s m)], held := fun s m _ => busyIf (maskPending s m) }

def runMaskSwap (s : State) (p : Packet) (m : Nat) (_ : List Byte) (at_ : Option Nat) : Ran :=
  let set := fun (s : State) f => { s with cue := { s.cue with masks := lmod s.cue.masks m f } }
  match at_ with
  | some n => (stOK, [], schedule s p 0x0853 (xfChan s (maskStream s m)) n (.maskSwap m))
  | none =>
    if (stream s (maskStream s m)).running then
      let c := appliedOrd s (xfChan s (maskStream s m))
      (stOK, appliedReply c, set s (fun k => { k with swapAt := some c }))
    else (stOK, [], set s (fun k => { k with swapAtStart := true }))

def execMaskSwap (p : Packet) (s : State) : Host.Outcome State Fault Refusal := .next (runPacket specMaskSwap runMaskSwap p s)

def specMaskRead : CmdSpec :=
  { opcode := 0x0856, inst := .below 16, len := fun p => decide (p.length = 8), badParam := fun _ _ p _ => maskBad 4 p }

def runMaskRead (s : State) (_ : Packet) (m : Nat) (p : List Byte) (_ : Option Nat) : Ran :=
  let k := nth s.cue.masks m {}
  let b := if bit (fld p 0 1) 1 then 1 - k.active else k.active
  let t := if bit (fld p 0 1) 0 then (if b = 0 then k.lower0 else k.lower1) else (if b = 0 then k.upper0 else k.upper1)
  let d := if bit (fld p 0 1) 0 then 0 else 65535
  (stOK, p.take 8 ++ (List.range (fld p 2 2)).flatMap (fun i => leBytes 2 (tgetD t (fld p 4 4 + i) d)), s)

def execMaskRead (p : Packet) (s : State) : Host.Outcome State Fault Refusal := .next (runPacket specMaskRead runMaskRead p s)

end Sys2Proof.Machine
end

