-- ==== Sys2Proof/Machine/Samples.lean ====
section
/-! DEFINITION. Samples, gaps and zoom blocks: what the fixed-rate producers deliver and who takes it (R18, R24 to R26,
R187, R188, R229). -/
namespace Sys2Proof.Machine

/-! ### Level detectors (R229) -/

/-- The state of a detector after a value, and the edge test of the item it yields (2 RISE, 3 FALL). -/
def lvlStep (above : Bool) (high low v : Int) : Bool × Option Nat :=
  if !above && decide (high ≤ v) then (true, some 2)
  else if above && decide (v ≤ low) then (false, some 3)
  else (above, none)

/-- One value of a source at an ordinal reaches its detectors. -/
def lvlTake (s : State) (code ord flags : Nat) (v : Int) : State :=
  (List.range 16).foldl (fun s d =>
    if par s 0x0818 d ≠ code then s else
    match lvlStep (nth s.cue.above d false) (parI s 0x0819 d) (parI s 0x081A d) v with
    | (_, none) => s
    | (up, some t) => { s with cue := { s.cue with
        above := lmod s.cue.above d (fun _ => up)
        arriving := s.cue.arriving ++ [{ kind := 0x02, inst := d, ord, tests := [t], level := if up then 1 else 0, flags }] } }) s

/-- Some detector watches a source. -/
def lvlWatched (s : State) (code : Nat) : Bool := (List.range 16).any (fun d => decide (par s 0x0818 d = code))

/-- The buffer of 65,536 items of a source's level detectors is full (R245). -/
def lvlFull (s : State) (code : Nat) : Bool :=
  (List.range 16).any (fun d => decide (par s 0x0818 d = code) &&
    decide (65536 ≤ (s.cue.arriving.filter (fun i => decide (i.kind = 2) && decide (i.inst = d))).length))

/-! ### Zoom blocks (R188) -/

/-- A sample as consumers of a C16 zoom see it, in the C24 scale. -/
def c16View (x : FlagIQ) : FlagIQ := { x with i := 256 * x.i, q := 256 * x.q }

/-- A zoom block reaches a unit, whole or as outputs into its reducers; a step that takes effect within it cuts it at σ (R268). -/
def capBlock (s : State) (u : Nat) (item : CapItem) (view : List FlagIQ) (lin : Nat → Nat) : State :=
  let part := fun (s : State) (i : CapItem) (xs : List (FlagIQ × Nat)) =>
    let s := if (cap s u).step = 0 && !xs.isEmpty then pushItem s u { i with flags := fld i.body 11 1 % 16 } else s
    xs.foldl (fun s x => reducerTake s u (item.index + x.2) x.1) s
  let k := match (cap s u).stepPend with
    | none => view.length
    | some (sigma, _) => placesBelow item lin sigma
  if view.length ≤ k then part s item view.zipIdx
  else if k = 0 then part (stepApply s u item.ord) item view.zipIdx
  else
    let (a, b) := cutItem item k lin
    part (stepApply (part s a (view.zipIdx.take k)) u b.ord) b (view.zipIdx.drop k)

/-- Delivers the first k outputs of a zoom as one block: its markers, its consumers. -/
def zoomDeliver (s : State) (z k : Nat) : State :=
  let zm := nth s.zooms z {}
  let first := zm.outIndex
  let raw := zm.outs.take k
  let c16 := decide (zpar s 0x0613 z = 1)
  let cut := if c16 then raw.map (fun x => (toC16 x).1) else raw
  let hits := if c16 then (raw.zipIdx.filter (fun x => (toC16 x.1).2)).map (fun x => (16, first + x.2)) else []
  let sat := fun (i : Nat) => zm.gaps.any (fun g => decide (g.first ≤ i) && decide (i ≤ g.last))
  let l := (cut.zipIdx).map (fun x => if sat (first + x.2) then { x.1 with gap := true } else x.1)
  let lastK := first + k - 1
  -- markers ahead of the block that holds their first output
  let due := zm.gapsOut.filter (fun m => decide (m.first ≤ lastK))
  let s := setZoom s z (fun m => { m with
    gapsOut := m.gapsOut.filter (fun g => lastK < g.first), gaps := m.gaps.filter (fun g => lastK < g.last) })
  let s := due.foldl (fun s m =>
    let s := capGap s (0x0200 + z) m (zoomOrd s z m.first) (zoomOrd s z m.last)
    (List.range 16).foldl (fun s n => streamMarker s n (0x0200 + z) m) s) s
  let s := zoomSat s z hits
  let bytes := zoomBlockBytes s z first l
  let o := zoomOrd s z first
  let fl := fld bytes 11 1 % 16
  -- capture units: whole blocks, or outputs into their reducers
  let view := if c16 then l.map c16View else l
  let item : CapItem := { typ := 0x11, ord := o, last := zoomOrd s z lastK, index := first, body := bytes, flags := fl }
  let s := (capsOf s (0x0200 + z)).foldl (fun s u => capBlock s u item view (zoomOrd s z)) s
  let s := portFeed s (0x0200 + z) o bytes fl
  let s := (view.zipIdx).foldl (fun s x => streamFeed s (0x0200 + z) (first + x.2) x.1) s
  let s := if lvlWatched s (0x0200 + z) then
      (view.zipIdx).foldl (fun s x =>
        let f := b2n x.1.ovr + 2 * b2n x.1.stl + 4 * b2n x.1.sat + 8 * b2n x.1.gap
        lvlTake s (0x0200 + z) (zoomOrd s z (first + x.2)) f (pw16Of x.1)) s
    else s
  setZoom s z (fun m => { m with outs := m.outs.drop k, outIndex := first + k })

/-- What stands in the way of a zoom's block (R17, R245). -/
def zoomBlocked (s : State) (z : Nat) : Bool :=
  stalled s 0x02 z || streamHolds s (0x0200 + z) || capBlocked s (0x0200 + z) || lvlFull s (0x0200 + z) || portFull s (0x0200 + z) (zoomOrd s z (nth s.zooms z {}).outIndex) 432

/-- A zoom has stopped: streams on it end, and its consumers see the end of the source (R220). -/
def zoomEnd (s : State) (z : Nat) (shed : Bool) (ord : Nat) : State :=
  let s := setZoom s z (fun m => { m with running := false, shed, stopAt := none })
  let s := (List.range 16).foldl (fun s n =>
    if (stream s n).running && decide (xfSrc s n = 0x0200 + z) then
      streamHalt s n shed
    else s) s
  let s := portStop s (0x0200 + z) true
  (capsOf s (0x0200 + z)).foldl (fun s u => capEndUnit s u ord) s

/-- Delivers every whole block, and a last short one where the zoom stops. -/
def zoomDrain (s : State) (z : Nat) : State :=
  let n := (nth s.zooms z {}).outs.length
  let s := (List.range (n / 64)).foldl (fun s _ => zoomDeliver s z 64) s
  let k := (nth s.zooms z {}).outs.length
  if k = 0 then s else zoomDeliver s z k

/-! ### One sample (R122 to R142) -/

/-- A LEAD gathers the check extent of a channel at an ordinal (R514). -/
def gathers (s : State) (d n : Nat) : Bool :=
  decide (s.pair.role = 1) && s.pair.sync && decide (s.pair.checkChan = d) && decide (s.pair.nextX ≤ n) &&
  decide (n < s.pair.nextX + 65536)

/-- Changes the extent being gathered, which begins at the multiple of the period. -/
def gather (s : State) (d n : Nat) (f : ExtentDraft → ExtentDraft) : State :=
  if !gathers s d n then s
  else
    let new : ExtentDraft := { chan := d, x := n, coefs := (converters s d).map (fun k => (k, coefBytes (decide (k = 1)) (chan s k).coef)) }
    let old := if n = s.pair.nextX then some new else s.pair.draft
    { s with pair := { s.pair with draft := old.map f } }

/-- The phases of the zooms on a channel at the first conditioned index whose input span lies in the extent. -/
def gatherPhases (s : State) (d j : Nat) : State :=
  match s.pair.draft with
  | none => s
  | some e =>
    if e.chan = d && decide (j = cdiv (e.x + 24) 2) then
      let l := (List.range 32).filter (fun z => (nth s.zooms z {}).running && decide (zoomChan s z = d))
      { s with pair := { s.pair with draft := some { e with phases := l.map (fun z => (z, (nth s.zooms z {}).phase)) } } }
    else s

/-- Gives a conditioned sample to the zooms, streams and reducers of a domain. -/
def feedCond (s : State) (d j : Nat) (x : FlagIQ) : State :=
  let s := feedZooms (gatherPhases s d j) d j x
  let s := streamFeed s (0x0100 + d) j x
  capCond s d j x

/-- A background update that is due takes effect; capture units of the channel store the new set (R125, R272). -/
def calDue (s : State) (c n : Nat) : State :=
  if (chan s c).updates.any (fun u => u.1 ≤ n) then
    let s := setChan s c (fun ch => bgApply ch n)
    let set := coefBytes (decide (c = 1)) (chan s c).coef
    let s := if n = s.pair.nextX then s else gather s (domainOf s c) n (fun e => { e with updates := e.updates ++ [(n, c, set)] })
    capCal s (domainOf s c) n set
  else s

/-- BGCAL_UPDATE: the update of a block takes effect at its ordinal (R125). -/
def execBgcalUpdate (c : Fin 4) (s : State) : Host.Outcome State Fault Refusal := .next (calDue s c (sampleOrd s c))

/-- The converter whose turn it is, while CH0 and CH1 are paired. -/
def inTurn (s : State) (c : Nat) : Bool :=
  !paired s || decide (2 ≤ c) || (if c = 0 then decide ((chan s 0).count = (chan s 1).count)
    else decide ((chan s 1).count < (chan s 0).count))

/-- What a channel feeds withholds acknowledge (R17): a stalled conditioner or zoom, a zoom whose whole block waits, a stream
whose whole frame waits. How much more each stage takes before it does so, the manual leaves open. DESIGN CHOICE, see
assumption 65: nothing more. -/
def fabricHeld (s : State) (d : Nat) : Bool :=
  (converters s d).any (stalled s 0x01) || streamHolds s (0x0100 + d) ||
  (List.range 32).any (fun z => (nth s.zooms z {}).running && decide (zoomChan s z = d) &&
    (stalled s 0x02 z || (decide (64 ≤ (nth s.zooms z {}).outs.length) && zoomBlocked s z)))

/-- A sample can reach the fabric: the channel runs on started clocks and has not reached its stop ordinal, its turn has come,
its ordinal is in no gap, and nothing that the channel feeds withholds acknowledge. -/
def sampleOpen (s : State) (c : Nat) : Bool :=
  let d := domainOf s c
  (chan s c).running && inTurn s c && (clocksStarted s || replaying s) &&
  (match (chan s d).buf.dropping with
   | none => true
   | some f => decide (sampleOrd s c < f)) &&
  (match (chan s d).stopAt with
   | none => true
   | some n => decide (sampleOrd s c < n)) &&
  !capBlocked s (0x0100 + d) && !lvlFull s (0x0100 + d) && !fabricHeld s d

/-- One sample word through the fabric: flags, conditioner, level detectors, capture, zooms and streams. -/
def sampleTake (s : State) (c : Nat) (code : BitVec 12) (ovr : Bool) : State :=
  let n := sampleOrd s c
  let d := domainOf s c
  let v := code.toInt
  let s := tickAt s d n
  let s := if ovr then noteOvr s c n else s
  let s := (converters s d).foldl (fun s k => calDue s k n) s
  let x := condSample s c n v ovr false
  let stl := rawStl s c n
  let s := gather s d n (fun e => { e with codes := e.codes ++ [code], flags := e.flags ++ [ovr || stl] })
  let (s, y) := conditionOne s c n x
  let s := converterWord s c n (some v) (!ovr && !stl)
  let s := lvlTake s (0x0100 + d) n (b2n ovr + 2 * b2n stl) v
  let s := capRaw s d n code ovr stl
  match y with
  | some (k, z) => feedCond s d k z
  | none => s

/-! ### Gaps (R24 to R26) -/

/-- One lost sample of a channel: zero with the GAP flag into the conditioner. -/
def lostSample (s : State) (d n : Nat) : State :=
  let c := if paired s && decide (d = 0) then n % 2 else d
  let s := (converters s d).foldl (fun s k => calDue s k n) (tickAt s d n)
  let s := gather s d n (fun e => { e with lost := true })
  let x : RawSample := { v := 0, skew := 0, gap := true }
  let (s, y) := conditionOne s c n x
  let s := converterWord s c n none false
  match y with
  | some (k, z) => feedCond s d k z
  | none => s

/-- A marker of a channel's domain reaches the zooms and streams that a test picks. -/
def blockMarker (s : State) (m : GapMarker) (zoom stream_ : Nat → Bool) : State :=
  let s := (List.range 32).foldl (fun s z => if zoom z then zoomMarker s z m else s) s
  (List.range 16).foldl (fun s n => if stream_ n then streamMarker s n m.source m else s) s

/-- One lost sample of a gap, after what `due` does at its ordinal (R35). A zoom or stream that starts there gets the marker
of the gap ahead of its first input. -/
def lostAt (due : State → State) (d n : Nat) (m : GapMarker) (s : State) : State :=
  let t := due s
  if !(chan t d).running then t
  else
    let t := blockMarker t m (fun z => !(nth s.zooms z {}).running && (nth t.zooms z {}).running)
      (fun k => !(stream s k).running && (stream t k).running)
    lostSample t d n

/-- A marker of a channel's domain reaches every consumer, before any data that follows the gap; the lost samples f to l
follow. `due` is what happens ahead of each of them. -/
def channelMarker (due : State → State) (s : State) (d f l : Nat) (m : GapMarker) : State :=
  let s := blockMarker (capGap s (0x0100 + d) m f l) m (fun _ => true) (fun _ => true)
  (List.range (l + 1 - f)).foldl (fun s i => lostAt due d (f + i) m s) s

/-- The marker of a gap of a channel's domain, of a sequence number. -/
def channelGapMarker (s : State) (d f l seq : Nat) : GapMarker :=
  let pr := paired s && decide (d = 0)
  { source := 0x0100 + d, reason := if pr then 2 else 1, paired := pr, first := f, last := l, sequence := seq }

/-- A gap of a channel's domain ends: lost ordinals f to l. It is counted and posted (R25); its marker stands in the buffer
at the place of the lost data. -/
def channelGap (s : State) (d f l : Nat) : State :=
  let seq := (chan s d).buf.gaps + 1
  let s := setChan s d (fun ch => { ch with buf := { ch.buf with dropping := none, gaps := seq, ended := ch.buf.ended ++ [(f, l)] } })
  raiseWindowed s 0x0210 (0x0100 + d) (1 + 65536 * (seq % 65536)) (some (d, f)) id

/-- The markers at the head of a channel's buffer leave it, with the lost samples that they stand for. -/
def channelMarkers (due : State → State) (d : Nat) : Nat → State → State
  | 0, s => s
  | k + 1, s =>
    let b := (chan s d).buf
    match b.ended with
    | (f, l) :: rest =>
      if ordNext s d = f && (chan s d).running then
        let m := channelGapMarker s d f l (b.gaps - rest.length)
        channelMarkers due d k
          (channelMarker due (setChan s d (fun ch => { ch with buf := { ch.buf with ended := rest } })) d f l m)
      else s
    | [] => s

/-- The gain of the entry whose slot begins next comes into force; a new gain restarts its correction (R445). -/
def auxLatch (s : State) : State :=
  let e := s.aux.next % Nat.max 1 (par s 0x0F02 0)
  let g := par s 0x0F11 e
  { s with aux := { s.aux with entries := lmod s.aux.entries e (fun x =>
    if x.gain = g then x else { x with gain := g, settled := 0 }) } }

/-- A gap of the auxiliary converter ends: lost results f to l. It is counted and posted; its marker stands in the buffer. -/
def auxGap (s : State) (f l : Nat) : State :=
  let seq := s.aux.buf.gaps + 1
  let s := { s with aux := { s.aux with gapSeen := true, buf := { s.aux.buf with
    dropping := none, gaps := seq, ended := s.aux.buf.ended ++ [(f, l)] } } }
  raiseWindowed s 0x0210 0x0400 (1 + 65536 * (seq % 65536)) none id f

/-- The markers at the head of the auxiliary converter's buffer leave it; the results that they name are passed over. -/
def auxMarkers : Nat → State → State
  | 0, s => s
  | k + 1, s =>
    match s.aux.buf.ended with
    | (f, l) :: rest =>
      if s.aux.next = f then
        let m : GapMarker := { source := 0x0400, reason := 1, paired := false, first := f, last := l, sequence := s.aux.buf.gaps - rest.length }
        let s := auxLatch { s with aux := { s.aux with next := l + 1, buf := { s.aux.buf with ended := rest } } }
        let n := ordNext s (cueChan s)
        auxMarkers k (capGap s 0x0400 m n n)
      else s
    | [] => s

/-- A gap of a time-interval input: lost stamps f to l. -/
def tiuGap (s : State) (i f l : Nat) : State :=
  let x := nth s.tiu.inputs i {}
  let seq := x.gaps + 1
  let m : GapMarker := { source := 0x0500 + i, reason := 1, paired := false, first := f, last := l, sequence := seq }
  let s := { s with tiu := { s.tiu with inputs := lmod s.tiu.inputs i (fun x => { x with dropping := none, gaps := seq, gapSeen := true })
                                        stats := (s.tiu.stats.zipIdx).map (fun y =>
      if y.1.isOpen.isSome && (decide (par s 0x1010 y.2 % 65536 = 0x0500 + i) || decide (par s 0x1011 y.2 % 65536 = 0x0500 + i)) then
        { y.1 with isOpen := none, discards := satU 32 (y.1.discards + 1) } else y.1) } }
  let s := raiseWindowed s 0x0210 (0x0500 + i) (1 + 65536 * (seq % 65536)) none id f
  let n := ordNext s (cueChan s)
  capGap s (0x0500 + i) m n n

/-- GAP_MARKER_RECEIVED: a block takes a gap marker from its source (R26, R187, R207). -/
def execGapMarkerReceived (b : Block) (m : GapMarker) (s : State) : Host.Outcome State Fault Refusal :=
  .next (match b with
  | .zoom z => zoomMarker s z m
  | .stream n => streamMarker s n (xfSrc s n) m)

/-! ### Held events (R74) -/

/-- The detail of the event that reports the held occurrences of a window. -/
def heldDetail (code : Nat) (w : HeldWindow) : Nat :=
  let d := match w.first with
    | some e => e.detail
    | none => 0
  match code with
  | 0x0210 => Nat.min w.held 65535 + d / 65536 * 65536
  | 0x0212 => Nat.min w.held (2 ^ 32 - 1)
  | 0x0F03 => w.acc % 64 + 65536 * Nat.min w.held 65535
  | _ => Nat.min w.held 65535 + d / 65536 * 65536

/-- HELD_EVENT_WINDOW_END: a window ends; what it held is posted as one event, which opens the next window (R74). -/
def execHeldEventWindowEnd (code inst : BitVec 16) (s : State) : Host.Outcome State Fault Refusal :=
  let key := (code.toNat, inst.toNat)
  match s.ev.windows.find? (fun w => w.1 = key) with
  | none => .next s
  | some (_, w) =>
    match w.first with
    | none => .next { s with ev := { s.ev with windows := s.ev.windows.filter (fun w => w.1 ≠ key) } }
    | some e =>
      let s := { s with ev := { s.ev with windows := s.ev.windows.map (fun x => if x.1 = key then (key, {}) else x) } }
      .next (post s { e with detail := heldDetail code.toNat w })

end Sys2Proof.Machine
end

