-- ==== Sys2Proof/Machine/SheetPlay.lean ====
section
/-! DEFINITION. Rehearsal and play of the cue sheets, their timers, trigger outputs and commands (R43 to R48, R230 to
R252, R265). -/
namespace Sys2Proof.Machine

def setSheet (s : State) (i : Nat) (f : Sheet → Sheet) : State :=
  { s with cue := { s.cue with sheets := lmod s.cue.sheets i f } }

/-! ### Progress (R241) -/

/-- The ordinals of the cue channel in n ns, rounded up. -/
def nsOrdUp (s : State) (n : Nat) : Nat := cdiv (n * ordRate s (cueChan s)) (10 ^ 9)

/-- The engines that may still raise an event. -/
def liveEngines (s : State) : List Engine :=
  (s.engines.filter (fun x => decide (x.2.st = .running) || decide (x.2.st = .waiting) || decide (x.2.st = .paused))).map (·.2)

/-- Ordinals below this are settled for a condition source of a sheet (R241). A stream has progressed to its last frame: what
follows may be the CLEAR of R226, or the rest of a trace cut short. -/
def sourceBound (s : State) (sheet kind inst : Nat) : Nat :=
  let now := ordNext s (cueChan s)
  match kind with
  | 0x01 =>
    let n := par s 0x0820 inst % 256
    let st := stream s n
    if !st.running then now
    else match st.evalAt with
      | none => Nat.min now st.startOrd
      | some e => Nat.min now (if decide (par s 0x0821 inst = 1) && !st.trace.isEmpty then e else e + 1)
  | 0x02 =>
    let code := par s 0x0818 inst
    if isZoomCode code && (nth s.zooms (code % 256) {}).running then
      Nat.min now (zoomOrd s (code % 256) (nth s.zooms (code % 256) {}).outIndex)
    else now
  | 0x03 => now - nsOrdUp s 2000
  | 0x04 => now - nsOrdUp s 2000
  | 0x05 => now - nsOrdUp s 2000
  | 0x06 =>
    let w := ((liveEngines s).map (fun e => e.watermark + 1)).min?.getD now
    Nat.min now (Nat.max w (now - nsOrdUp s (par s 0x0805 sheet)))
  | 0x07 => (s.pend.filterMap (fun c => match c.act with
      | .cueHost _ => some c.ord
      | _ => none)).foldl Nat.min now
  | 0x08 => now - nsOrdUp s 10000
  | _ =>
    if par s 0x080C inst = 0 then now
    else Nat.min now (par s 0x080B inst + nth s.cue.timerNext inst 0 * par s 0x080C inst)

/-- Some routed edge leads to a sheet. -/
def routed (s : State) (sheet : Nat) : Bool := (List.range 8).any (fun t => decide (par s 0x0808 (8 * sheet + t) % 65536 ≠ 0))

/-- Ordinals below this are settled for a sheet: its sources and its task sources have progressed past them. -/
def sheetBound (s : State) (i : Nat) : Nat :=
  let now := ordNext s (cueChan s)
  let tasks := (s.pend.filterMap (fun c => match c.act with
    | .cueTask m _ => if bit m i then some c.ord else none
    | _ => none)).foldl Nat.min (if routed s i then now - nsOrdUp s 2000 else now)
  let srcs := imgSources (sheetOf s i).image
  let b := srcs.foldl (fun b k => Nat.min b (sourceBound s i k.1 k.2)) tasks
  (s.cue.arriving.filter (fun x => srcs.contains (x.kind, x.inst))).foldl (fun b x => Nat.min b x.ord) b

/-- Ordinals below this may be played: the eight sheets play in one sequence (R243). -/
def playBound (s : State) : Nat := (List.range 8).foldl (fun b i => Nat.min b (sheetBound s i)) (ordNext s (cueChan s))

/-- The next ordinal, not yet played, at which a sheet has something to do. -/
def nextAct (s : State) : Option Nat :=
  ((List.range 8).filterMap (fun i =>
    let sh := sheetOf s i
    sheetNext sh.image s.cue.items sh.tasks sh.core s.cue.played)).min?

/-! ### Rehearsal (R242 to R246) -/

/-- Inserts an item behind those of its ordinal. -/
def insertByOrd (x : Item) : List Item → List Item
  | [] => [x]
  | y :: ys => if y.ord ≤ x.ord then y :: insertByOrd x ys else x :: y :: ys

/-- The checkpoints of a sheet: its state before each rehearsed ordinal. -/
def rehearseFrom (img : List Byte) (items : List Item) (tasks : List Task) : Nat → Nat → Nat → SheetCore → List (Nat × SheetCore)
  | 0, _, _, _ => []
  | f + 1, from_, top, c =>
    match sheetNext img items tasks c from_ with
    | none => []
    | some n => if top < n then [] else (n, c) :: rehearseFrom img items tasks f (n + 1) top (sheetAt img items tasks c n).1

/-- A sheet rehearses its items: work below which one has arrived is struck, its checkpoint restored, and everything
from there is evaluated again. -/
def rehearse (s : State) (i ord : Nat) : State :=
  let sh := sheetOf s i
  let struck := sh.checks.any (fun c => decide (ord < c.1))
  let top := (s.cue.items.map (·.ord)).foldl Nat.max 0
  let checks := rehearseFrom sh.image s.cue.items sh.tasks (s.cue.items.length + sh.tasks.length + 1) s.cue.played top sh.core
  setSheet s i (fun sh => { sh with checks, strikes := if struck then satU 64 (sh.strikes + 1) else sh.strikes })

/-- The sheets whose image uses a source. -/
def usersOf (s : State) (kind inst : Nat) : List Nat :=
  (List.range 8).filter (fun i => (imgSources (sheetOf s i).image).contains (kind, inst))

/-- The rehearsal limit of R46 holds an item: 64 frames, or 8,192 ordinals past the oldest unplayed one. -/
def rehearseHeld (s : State) (x : Item) : Bool :=
  decide (s.cue.played + 8192 < x.ord) ||
  (decide (x.kind = 0x01) && decide (64 ≤ (s.cue.items.filter (fun y =>
    decide (y.kind = x.kind) && decide (y.inst = x.inst) && decide (s.cue.played ≤ y.ord))).length))

/-- Takes an item: late ones at the oldest unplayed ordinal (R244). -/
def takeItem (s : State) (x : Item) : State :=
  let late := decide (x.ord < s.cue.played)
  let x' := if late then { x with ord := s.cue.played, late := true } else x
  let users := usersOf s x.kind x.inst
  let s := { s with cue := { s.cue with items := insertByOrd x' s.cue.items } }
  let s := if late then users.foldl (fun s i =>
      raiseLatched (setSheet s i (fun sh => { sh with lateSeen := true })) 0x0804 i x.kind (some (cueChan s, x'.ord))) s else s
  users.foldl (fun s i => rehearse s i x'.ord) s

/-- ITEM_REHEARSE: the first arriving item that the limit of R46 lets in. -/
def execItemRehearse (s : State) : Host.Outcome State Fault Refusal :=
  match s.cue.arriving with
  | [] => .next s
  | x :: rest =>
    if rehearseHeld s x then .next s
    else .next (takeItem { s with cue := { s.cue with arriving := rest } } x)

/-! ### What firing does (R235, R247, R252) -/

/-- A late output (R19): withheld, logged, and `OUTPUT_LATE`. -/
def outputLate (s : State) (kind inst ord : Nat) : State :=
  let s := logResolved s 0x0212 kind inst ord
  raiseWindowed s 0x0212 (kind * 256 + inst) 1 (some (cueChan s, ord)) id

/-- Schedules a pulse on an output (R247, R248). -/
def schedulePulse (s : State) (o n : Nat) : State :=
  let rise := n + nsToOrd s (cueChan s) (par s 0x0830 o)
  let fall := rise + nsToOrd s (cueChan s) (par s 0x0831 o)
  let t := nth s.cue.trg o {}
  let set := fun (f : TrgOut → TrgOut) => { s with cue := { s.cue with trg := lmod s.cue.trg o f } }
  if t.queue.length < 4096 then set (fun t => { t with queue := t.queue ++ [(rise, fall)] })
  else
    let s := set (fun t => { t with dropped := satU 32 (t.dropped + 1) })
    raiseLatched s 0x0805 o (nth s.cue.trg o {}).dropped (some (cueChan s, n))

/-- The cue record of Table 8-8. -/
def cueRecord (s : State) (sheet n cue kind occ entry truth frac cus outs : Nat) : List Byte :=
  let sh := sheetOf s sheet
  let slots := cueSlots (imgCue sh.image cue)
  let here := s.cue.items.filter (fun x => decide (x.ord = n) && slots.any (fun t => fromSlot t.2 x))
  let fl := here.foldl (fun f x => f ||| x.flags % 16) 0 + 16 * b2n sh.core.timed + 32 * b2n sh.taskOvf
  let mask := slots.find? (fun t => decide (t.2.kind = 0x01) && bit truth t.1)
  let item := mask.bind (fun t => latestItem s.cue.items t.2 n)
  let b := leBytes 8 n ++ leBytes 4 frac ++ leBytes 1 sheet ++ leBytes 1 cue ++ leBytes 1 kind ++ leBytes 1 truth ++
    leBytes 4 occ ++ leBytes 4 sh.fires ++ leBytes 2 fl ++
    leBytes 2 (match mask with | some t => t.2.inst | none => 0xFFFF) ++ leBytes 4 ((item.map (·.hits)).getD 0) ++
    leBytes 4 ((item.map (·.firstHit)).getD 0) ++ leBytes 2 cus ++ leBytes 1 (outs % 16) ++ zeros 1 ++ leBytes 8 entry ++ zeros 12
  b ++ leBytes 4 (crc32c b)

/-- A mark of a sheet is delivered (R236, R262). -/
def doMark (s : State) (sheet n cue occ entry frac : Nat) : State :=
  let rcd := cueRecord s sheet n cue 2 occ entry 0 frac 0 0
  let s := setSheet s sheet (fun sh => { sh with marks := sh.marks + 1, record := rcd })
  let s := (List.range 16).foldl (fun s u => if par s 0x090A u = sheet then capMark s u n rcd else s) s
  raise s 0x0802 sheet (cue + 65536 * ((sheetOf s sheet).marks % 65536)) (some (cueChan s, n))

/-- `CUE_FIRED` (Table 8-14). -/
def cueFired (s : State) (sheet n cue kind : Nat) : State :=
  let sh := sheetOf s sheet
  raise s 0x0801 sheet (cue + 16 * kind + 64 * b2n sh.core.timed + 65536 * (sh.fires % 65536)) (some (cueChan s, n))

/-- A sheet uses a timed source (Table 8-1): CMP, EV, AUX or PAIR. -/
def timedSources (img : List Byte) : Bool := (imgSources img).any (fun k => [3, 4, 5, 8].contains k.1)

/-- Delivers a task event to a sheet (R236): work rehearsed past its ordinal is struck and evaluated again (R43). A sheet
with timed sources cannot start during a `REPLAY` (R296). -/
def addTask (s : State) (sheet : Nat) (t : Task) : State :=
  if replaying s && timedSources (sheetOf s sheet).image then s else
  rehearse (setSheet s sheet (fun sh => { sh with tasks := sh.tasks ++ [t] })) sheet t.ord

/-- A task event that may come late: below the played ordinal it is taken at the oldest unplayed one, as a late item (R244). -/
def lateTask (s : State) (sheet : Nat) (t : Task) : State :=
  if s.cue.played ≤ t.ord then addTask s sheet t
  else
    let n := s.cue.played
    addTask (raiseLatched (setSheet s sheet (fun sh => { sh with lateSeen := true })) 0x0804 sheet 0xFF (some (cueChan s, n)))
      sheet { t with ord := n, timed := true }

/-- The effects of one act of a sheet at an ordinal (R235, R234, R236, R238). -/
def doAct (s : State) (sheet n : Nat) (a : SheetAct) : State :=
  match a with
  | .fire cue kind occ entry truth frac =>
    let c := imgCue (sheetOf s sheet).image cue
    let outs := cueOuts c
    let s := setSheet s sheet (fun sh => { sh with fires := sh.fires + 1 })
    let s := (setBits 4 outs).foldl (fun s o => schedulePulse s o n) s
    let rcd := cueRecord s sheet n cue kind occ entry truth frac (cueCUs c) outs
    let s := setSheet s sheet (fun sh => { sh with record := rcd })
    let s := (setBits 16 (cueCUs c)).foldl (fun s u => capTrigger s u n rcd) s
    let s := if bit outs 4 then doMark s sheet n cue occ entry 0 else s
    let s := if bit outs 5 then
        let s := cueFired s sheet n cue kind
        if s.pair.link then emit s (.link 2 [16 * sheet + cue, n]) else s
      else s
    (setBits 8 (cueSheets c)).foldl (fun s t =>
      addTask s t { ord := n + 1, input := cueTaskIn c, src := 1 + sheet, timed := (sheetOf s sheet).core.timed }) s
  | .timeout cue occ entry truth =>
    let rcd := cueRecord s sheet n cue 1 occ entry truth 0 0 0
    let s := setSheet s sheet (fun sh => { sh with record := rcd })
    if bit (cueOuts (imgCue (sheetOf s sheet).image cue)) 6 then cueFired s sheet n cue 1 else s
  | .mark cue occ entry frac => doMark s sheet n cue occ entry frac
  | .overflow input src =>
    let s := setSheet s sheet (fun sh => { sh with taskOvf := true })
    raiseLatched s 0x0803 (8 * sheet + input) src (some (cueChan s, n))

/-- One sheet plays an ordinal (R237). -/
def playSheet (s : State) (n i : Nat) : State :=
  let sh := sheetOf s i
  let (core, acts) := sheetAt sh.image s.cue.items sh.tasks sh.core n
  let counts := (List.range 8).map (fun t => nth sh.taskCount t 0 + (tasksAt sh.tasks n t).length)
  let s := setSheet s i (fun sh => { sh with
    core, taskCount := counts, checks := sh.checks.filter (fun c => n < c.1) })
  let s := acts.foldl (fun s a => doAct s i n a) s
  setSheet s i (fun sh => { sh with tasks := sh.tasks.filter (fun t => n < t.ord) })

/-- Drops the items that no later ordinal of any sheet, loaded now or later, can ask for: a newer one of the source has been
played, and an edge lies past the longest hold (R224). -/
def pruneItems (s : State) : State :=
  let p := s.cue.played
  let keep := fun (x : Item) => decide (p ≤ x.ord) || (!x.tests.isEmpty && decide (p ≤ x.ord + 2 ^ 32)) ||
    !(s.cue.items.any (fun y => decide (y.kind = x.kind) && decide (y.inst = x.inst) && decide (x.ord < y.ord) && decide (y.ord < p)))
  { s with cue := { s.cue with items := s.cue.items.filter keep } }

/-- Plays ordinal n, whose inputs have all arrived: the sheets in ascending number, then the capture units (R44, R243). -/
def playOrdinal (s : State) (n : Nat) : State :=
  let s := (List.range 8).foldl (fun s i => playSheet s n i) s
  let s := { s with cue := { s.cue with played := n + 1 } }
  pruneItems (capPlayAll s)

/-- Plays n if it is the next thing to play: every source has progressed past it, and nothing waits before it. -/
def tryPlay (s : State) (n : Nat) : State :=
  if running s (cueChan s) && decide (s.cue.played ≤ n) && decide (n < playBound s) &&
      (match nextAct s with
       | none => true
       | some m => decide (n ≤ m)) then playOrdinal s n
  else s

/-- SHEET_PLAY. -/
def execSheetPlay (n : Nat) (s : State) : Host.Outcome State Fault Refusal := .next (tryPlay s n)

/-- CUE_TIMEOUT: the ordinal at which the current cue of an armed sheet times out (R234). -/
def execCueTimeout (sheet : Fin 8) (s : State) : Host.Outcome State Fault Refusal :=
  let sh := sheetOf s sheet
  let m := cueMax (imgCue sh.image sh.core.cue)
  .next (if sh.core.st = .armed && decide (m ≠ 0) then tryPlay s (sh.core.e + (m : Int)).toNat else s)

/-- Plays everything below an ordinal, all inputs having arrived (R48): what stands between is played in order. -/
def playTo : Nat → Nat → State → State
  | 0, _, s => s
  | f + 1, top, s =>
    match nextAct s with
    | none => s
    | some n => if top ≤ n then s else playTo f top (playOrdinal s n)

/-- Rehearses every arriving item below an ordinal, and strikes the rest. -/
def rehearseAll (s : State) (top : Nat) : State :=
  let l := s.cue.arriving
  let s := { s with cue := { s.cue with arriving := [] } }
  (l.filter (fun x => decide (x.ord < top))).foldl takeItem s

/-- CUE_TIMER_TICK: a timer's next tick, once its ordinal is reached (R230). -/
def execCueTimerTick (t : Fin 8) (s : State) : Host.Outcome State Fault Refusal :=
  let period := par s 0x080C t
  let n := par s 0x080B t + nth s.cue.timerNext t 0 * period
  .next (if running s (cueChan s) && decide (period ≠ 0) && decide (n ≤ ordNext s (cueChan s)) then
      { s with cue := { s.cue with
        timerNext := lmod s.cue.timerNext t (· + 1)
        arriving := s.cue.arriving ++ [{ kind := 0x09, inst := t, ord := n, tests := [2] }] } }
    else s)

/-! ### Trigger outputs (R247, R248) -/

/-- The oldest scheduled pulse of an output is emitted, joined to one still high (R248). -/
def trgEmit (s : State) (o : Nat) : State :=
  let t := nth s.cue.trg o {}
  match t.queue with
  | [] => s
  | (rise, fall) :: rest =>
    let h := match t.high with
      | some f => if rise < f then Nat.max f fall else fall
      | none => fall
    let s := { s with cue := { s.cue with trg := lmod s.cue.trg o (fun t => { t with queue := rest, high := some h, count := t.count + 1 }) } }
    if edgeHeld s rise && !(s.pair.aligning.isSome && decide (par s 0x1206 0 = o)) then s else emit s (.trg o rise h)

/-- What a run left scheduled is out before the ordinals of the next begin (R249). -/
def trgFlush (s : State) : State :=
  (List.range 4).foldl (fun s o => (List.range (nth s.cue.trg o {}).queue.length).foldl (fun s _ => trgEmit s o) s) s

/-- TRG_OUT_PULSE: the oldest scheduled pulse of an output is due; a late one is withheld (R19). -/
def execTrgOutPulse (o : Fin 4) (late : Bool) (s : State) : Host.Outcome State Fault Refusal :=
  let t := nth s.cue.trg o {}
  match t.queue with
  | [] => .next s
  | (rise, _) :: rest =>
    if running s (cueChan s) && decide (ordNext s (cueChan s) < rise) then .next s
    else
      .next (if late then
          outputLate { s with cue := { s.cue with trg := lmod s.cue.trg o (fun t => { t with queue := rest }) } } 0x12 o rise
        else trgEmit s o)

/-! ### Commands (R231, R232, R239, R250, R256, R265) -/

/-- Tj of R265: bytes per second that a unit stores at full rate, with prefixes and trailers. -/
def capRate (s : State) (u : Nat) : Q :=
  let trailer : Q := (4096, 4064)
  let zb := fun (c16 : Bool) => if c16 then 304 else 432
  let r := match capKind s u with
    | 1 =>
      let r := qReduce (ordRate s (domainOf s (capInst s u)), 64)
      qMul r (104 * 256 + 16, 256)
    | 2 => qMul (qMul (zoomRate s (capInst s u)) (1, 64)) (zb (zpar s 0x0613 (capInst s u) = 1) * 64 + 16, 64)
    | 3 =>
      let n := capInst s u
      let out := par s 0x0709 n
      let b := if par s 0x070B n = 0 then xfN s n else par s 0x070B n
      let size := fun (w : Nat) => 64 + cdiv (b * w) 64 * 64
      let kinds := b2n (bit out 0) + b2n (bit out 1)
      let body := xfP s n * (b2n (bit out 0) * size 6 + b2n (bit out 1) * size 2)
      let f := xfFrameRate s n (par s 0x0705 n)
      let spec := qMul f (256 * body + 16 * xfP s n * kinds, 256)
      if bit out 2 && par s 0x070C n ≠ 0 then
        qAdd spec (qMul f (qReduce (256 * size 2 + 16, 256 * 2 ^ par s 0x070D n)))
      else spec
    | 4 =>
      let l := List.range (par s 0x0F02 0)
      let slots := l.foldl (fun a i => a + par s 0x0F13 i + par s 0x0F12 i) 0
      qMul (qReduce (l.length * 10 ^ 8, slots)) (12 * 4096 + 16, 4096)
    | _ => (0, 1)
  qMul r trailer

/-- The resolution margin of a unit in ns (R265). -/
def capMargin (s : State) (imgs : List (List Byte)) (u : Nat) : Nat :=
  (List.range 8).foldl (fun m i =>
    let img := nth imgs i []
    if (List.range (imgCues img)).any (fun j => bit (cueCUs (imgCue img j)) u) then Nat.max m (requiredLatency s imgs i) else m) 1000000

/-- `cap.pre_max`: the largest `cap.pre` (R265). A source whose rate is not configured sets no limit of its own. -/
def capPreMax (s : State) (imgs : List (List Byte)) (u : Nat) : Nat :=
  let r := capRate s u
  if r.1 = 0 then 2 ^ 48
  else
    let room := par s 0x0911 u - 2 ^ 27
    -- ordinals in the time that fills the room, less the margin
    let fill := qMul (qMul (qNat room) (r.2, r.1)) (qNat (ordRate s (cueChan s)))
    let m : Q := (capMargin s imgs u * ordRate s (cueChan s), 10 ^ 9)
    if qLe fill m then 0 else let x := qSub fill m; x.1 / x.2

/-- Some unit's `cap.pre` is above its `cap.pre_max`. -/
def preBroken (s : State) (imgs : List (List Byte)) : Bool :=
  (List.range 16).any (fun u => decide (capPreMax s imgs u < par s 0x0904 u))

/-- A source of a condition names an absent unit (R8). -/
def condAbsent (s : State) (k i : Nat) : Bool :=
  match k with
  | 0x01 => !fitted s.variant 0x03 (par s 0x0820 i % 256)
  | 0x02 => let c := par s 0x0818 i; decide (c ≠ 0) && !fitted s.variant (c / 256) (c % 256)
  | _ => false

def specCueLoad : CmdSpec :=
  { opcode := 0x0850, inst := .below 8, modes := [.idle, .analyse, .record, .service],
    len := imageLen,
    absent := fun s _ p => imageLen p && (imgSources p).any (fun k => condAbsent s k.1 k.2),
    badState := fun s i _ => (sheetOf s i).core.st ≠ .disarmed ||
      s.pend.any (fun c => match c.act with
        | .cueTask m _ => bit m i
        | _ => false),
    badParam := fun s i p _ => imageBad p ||
      latencyBroken s (lmod (sheetImages s) i (fun _ => p)) || preBroken s (lmod (sheetImages s) i (fun _ => p)) }

def runCueLoad (s : State) (_ : Packet) (i : Nat) (p : List Byte) (_ : Option Nat) : Ran :=
  (stOK, [], setSheet s i (fun sh => { sh with image := p, core := { sh.core with cue := 0 }, checks := [] }))

def execCueLoad (p : Packet) (s : State) : Host.Outcome State Fault Refusal := .next (runPacket specCueLoad runCueLoad p s)

def specCueTask : CmdSpec :=
  { opcode := 0x0851, atOk := true, modes := [.analyse, .record], len := fun p => decide (p.length = 8),
    runs := true,
    badParam := fun _ _ p _ => decide (8 ≤ fld p 1 1) || !zeroBytes p 2 6 }

/-- A host task reaches its sheets at an ordinal; without AT_ORDINAL it makes them timed (R246). -/
def hostTask (s : State) (sheets input n : Nat) (timed : Bool) : State :=
  (setBits 8 sheets).foldl (fun s i => addTask s i { ord := Nat.max n s.cue.played, input, src := 0, timed }) s

def runCueTask (s : State) (p : Packet) (_ : Nat) (pl : List Byte) (at_ : Option Nat) : Ran :=
  match at_ with
  | some n => (stOK, [], schedule s p 0x0851 (cueChan s) n (.cueTask (fld pl 0 1) (fld pl 1 1)))
  | none =>
    let n := appliedOrd s (cueChan s)
    (stOK, appliedReply n, hostTask s (fld pl 0 1) (fld pl 1 1) n true)

def execCueTask (p : Packet) (s : State) : Host.Outcome State Fault Refusal := .next (runPacket specCueTask runCueTask p s)

def specCueHost : CmdSpec :=
  { opcode := 0x0854, atOk := true, modes := [.analyse, .record], len := fun p => decide (p.length = 8),
    runs := true, badParam := fun _ _ p _ => !zeroBytes p 1 7 }

/-- One HOST item; without AT_ORDINAL it is timed (Table 8-1). -/
def hostItemAt (s : State) (code n : Nat) (timed : Bool) : State :=
  { s with cue := { s.cue with arriving := s.cue.arriving ++
    [{ kind := 0x07, inst := code, ord := n, tests := [2], flags := 32 * b2n timed }] } }

def runCueHost (s : State) (p : Packet) (_ : Nat) (pl : List Byte) (at_ : Option Nat) : Ran :=
  match at_ with
  | some n => (stOK, [], schedule s p 0x0854 (cueChan s) n (.cueHost (fld pl 0 1)))
  | none =>
    let n := appliedOrd s (cueChan s)
    (stOK, appliedReply n, hostItemAt s (fld pl 0 1) n true)

def execCueHost (p : Packet) (s : State) : Host.Outcome State Fault Refusal := .next (runPacket specCueHost runCueHost p s)

def specCueRead : CmdSpec := { opcode := 0x0855, inst := .below 8 }

def runCueRead (s : State) (_ : Packet) (i : Nat) (_ : List Byte) (_ : Option Nat) : Ran := (stOK, (sheetOf s i).image, s)

def execCueRead (p : Packet) (s : State) : Host.Outcome State Fault Refusal := .next (runPacket specCueRead runCueRead p s)

/-- The sheets at START (R240): DISARMED at cue 0, counts cleared, ARM at the start ordinal where asked for; timers
and level detectors begin again. -/
def cuesStart (s : State) (n : Nat) : State :=
  let s := trgFlush s
  let s := { s with cue := { s.cue with
    sheets := s.cue.sheets.map (fun sh => { image := sh.image, lateSeen := sh.lateSeen, taskOvf := sh.taskOvf })
    arriving := [], items := [], played := n, above := List.replicate 16 false
    timerNext := List.replicate 8 0
    trg := s.cue.trg.map (fun _ => {})
    masks := s.cue.masks.map (fun m => if m.swapAtStart then { m with active := 1 - m.active, swapAtStart := false } else m) } }
  (List.range 8).foldl (fun s i =>
    if par s 0x0806 i = 1 && !(sheetOf s i).image.isEmpty then addTask s i { ord := n, input := 0, src := 0 } else s) s

end Sys2Proof.Machine
end

