-- ==== Sys2Proof/Machine/Clocks.lean ====
section
/-! DEFINITION. PLLs, reference selection, PPS_IN and absolute time, and the pulse gates (chapter 5). -/
namespace Sys2Proof.Machine

/-! ### The reference (R149 to R154) -/

/-- The reference that the rules select now: 0 none, 1 REFIN, 2 XO. Under AUTO a present XO in use is kept while any
channel runs. -/
def refChoice (s : State) : Nat :=
  match par s 0x0501 0 with
  | 1 => if s.clk.refinOk then 1 else 0
  | 2 => if s.clk.xoOk then 2 else 0
  | _ =>
    if s.clk.refinOk && !(decide (s.clk.source = 2) && s.clk.xoOk && anyRunning s) then 1
    else if s.clk.xoOk then 2 else 0

/-- Changes SOURCE, with `CLK_REF` (Table 5-9) at each change of it and at no other time; n and f are computed anew. -/
def moveRef (s : State) (reason : Nat) : State :=
  let new := refChoice s
  if new = s.clk.source then s
  else
    let s := programPlls (setClk s (fun c => { c with source := new }))
    raise s 0x0501 0 (new + 256 * reason)

/-- Loss of lock of a PLL (R152, R153): it freezes and coasts. -/
def loseLock (s : State) (p : Nat) (coast : Bool) : State :=
  let x := nth s.clk.plls p {}
  if !x.powered then s
  else
    let s' := setClk s (fun c => { c with plls := lmod c.plls p (fun x =>
      { x with lock := false, coast, good := 0, bad := 0, unlockSeen := x.unlockSeen || x.lock }) })
    if x.lock then raise s' 0x0502 p 0 else s'

/-- Loss of the reference in use: every powered PLL loses lock; then the PLLs move to the next reference, or coast
without one (R152, R154). -/
def loseRef (s : State) (reason : Nat) : State :=
  let s := (List.range 4).foldl (fun s p => loseLock s p true) s
  let s := moveRef s reason
  if s.clk.source = 0 then s
  else setClk s (fun c => { c with plls := c.plls.map (fun x => { x with coast := false }) })

/-- A reference comes back into use after none was: the loops resume from the frozen integrators. -/
def resumeRef (s : State) (reason : Nat) : State :=
  let none_ := decide (s.clk.source = 0)
  let s := moveRef s reason
  if none_ && decide (s.clk.source ≠ 0) then
    setClk s (fun c => { c with plls := c.plls.map (fun x => { x with coast := false }) })
  else s

/-- AUTO returns to REFIN at the first instant that no channel runs (R149). -/
def autoReturn (s : State) : State :=
  if par s 0x0501 0 = 0 && decide (s.clk.source = 2) && s.clk.refinOk && !anyRunning s then moveRef s 4 else s

/-- After a write of `clk.ref_select`: a move between present references keeps lock (R149); a choice that is not there
makes the PLLs coast. -/
def refWritten (s : State) : State :=
  let new := refChoice s
  if new = s.clk.source then s
  else if new = 0 then loseRef s 2
  else resumeRef s 2

/-- REFIN is watched: not in DORMANT, unless the device is leaving it (R99, R151). -/
def refinWatched (s : State) : Bool := s.md.mode ≠ .dormant || s.md.waking || s.md.transit.isSome

/-- A frequency lies within a tolerance, in parts per million, of another. -/
def withinPpm (hz wanted ppm : Nat) : Bool := decide (((hz : Int) - (wanted : Int)).natAbs * 1000000 ≤ wanted * ppm)

/-- The tolerance of the frequency test of REFIN: ±200 ppm against XO, ±1% against the low-power oscillator (R150). -/
def refinPpm (xo : Bool) : Nat := if xo then 200 else 10000

/-- The frequency test of R150: 1, 2, 3 for 10, 25 and 100 MHz, 0 where a frequency meets none. -/
def refinCode (xo : Bool) (hz : Nat) : Nat :=
  if withinPpm hz 10000000 (refinPpm xo) then 1
  else if withinPpm hz 25000000 (refinPpm xo) then 2
  else if withinPpm hz 100000000 (refinPpm xo) then 3
  else 0

/-- XO is present: it oscillates within ±1% of 100 MHz. -/
def xoHere (hz : Nat) : Bool := withinPpm hz 100000000 10000

/-- REFIN_LOST: 4.5 nominal periods without an edge, or a 1 ms window that departs from the frequency at which REFIN was
qualified by more than the tolerance of the test (R150). -/
def execRefinLost (s : State) (windowHz : Option Nat := none) : Host.Outcome State Fault Refusal :=
  .next (if !refinWatched s || !s.clk.refinOk ||
      (match windowHz with
       | some hz => withinPpm hz s.clk.refinHz (refinPpm s.clk.xoOk)
       | none => false) then s
    else
      let s := setClk s (fun c => { c with refinOk := false, refinFreq := 0, refinHz := 0, refLostSeen := true })
      if s.clk.source = 1 then loseRef s 0 else s)

/-- REFIN_QUALIFIED: edges have arrived for 1 ms at a frequency that meets the test (R150). -/
def execRefinQualified (hz : Nat) (s : State) : Host.Outcome State Fault Refusal :=
  let k := refinCode s.clk.xoOk hz
  .next (if !refinWatched s || s.clk.refinOk || decide (k = 0) then s
    else resumeRef (setClk s (fun c => { c with refinOk := true, refinFreq := k, refinHz := hz })) 1)

/-- XO_LOST: XO stops, or leaves its tolerance. -/
def execXoLost (s : State) (hz : Nat := 0) : Host.Outcome State Fault Refusal :=
  .next (if !s.clk.xoOk || xoHere hz then s
    else
      let s := setClk s (fun c => { c with xoOk := false })
      if s.clk.source = 2 then loseRef s 3 else s)

/-- XO_PRESENT. -/
def execXoPresent (s : State) (hz : Nat := 100000000) : Host.Outcome State Fault Refusal :=
  .next (if s.clk.xoOk || !xoHere hz then s else resumeRef (setClk s (fun c => { c with xoOk := true })) 5)

/-- The reference at boot and at an exit from DORMANT (R151): REFIN counts as qualified where its edges have met the
frequency test for the 1 ms before the selection. -/
def selectRef (s : State) (refinHz xoHz : Nat) : State :=
  let xo := xoHere xoHz
  let k := refinCode xo refinHz
  let s := setClk s (fun c => { c with
    xoOk := xo, refinOk := decide (k ≠ 0), refinFreq := k, refinHz := if k = 0 then 0 else refinHz })
  setClk s (fun c => { c with source := refChoice s })

/-! ### Lock (R152) -/

/-- A count difference as `clk.pll_status` holds it: 16 bits, signed, saturating. -/
def satDiff (d : Int) : Int := satS 16 d

/-- CLK_LOCK: a count window of a powered PLL on a present reference ends with a difference from 4,096; three good
windows declare lock and two bad ones its loss. -/
def execClkLock (pll : Fin 4) (diff : Int) (s : State) : Host.Outcome State Fault Refusal :=
  let x := nth s.clk.plls pll {}
  .next (if !x.powered || decide (s.clk.source = 0) then s
    else if diff.natAbs ≤ 2 then
      let up := !x.lock && decide (2 ≤ x.good)
      let s := setClk s (fun c => { c with plls := lmod c.plls pll (fun x =>
        { x with diff := satDiff diff, good := Nat.min 3 (x.good + 1), bad := 0, lock := x.lock || up,
                 started := x.started || up, coast := x.coast && !up }) })
      if up then raise s 0x0502 pll 1 else s
    else
      let down := x.lock && decide (1 ≤ x.bad)
      let s := setClk s (fun c => { c with plls := lmod c.plls pll (fun x =>
        { x with diff := satDiff diff, good := 0, bad := Nat.min 2 (x.bad + 1) }) })
      if down then loseLock s pll true else s)

/-! ### PPS_IN and absolute time (R161, R162, R468) -/

/-- R161: good edges come 1 s ± 1 µs after the edge before. -/
def ppsGoodEdge (intervalNs : Nat) : Bool := decide (999999000 ≤ intervalNs) && decide (intervalNs ≤ 1000001000)

/-- The seconds of `CLK_SET_TIME` that an edge takes: one that arrives at least 10 ms after the acceptance (R162). -/
def ppsSet (c : ClockUnit) (sinceSetNs : Nat) : Option Nat := if 10000000 ≤ sinceSetNs then c.setTime else none

/-- The seconds that a good edge takes (R162). -/
def ppsSeconds (c : ClockUnit) (elapsedS sinceSetNs : Nat) : Nat :=
  match ppsSet c sinceSetNs with
  | some v => v
  | none => if c.firstEdge then 0 else (c.seconds + (if c.ppsGone then elapsedS else 1)) % 2 ^ 48

/-- A rising edge of PPS_IN: the time since the edge before it, its raw stamp, the whole seconds elapsed on the reference
since the last good edge, and the time since the acceptance of a `CLK_SET_TIME` that waits. -/
def ppsEdge (intervalNs : Nat) (st : RawStamp) (elapsedS sinceSetNs : Nat) (s : State) : State :=
  if s.md.mode = .boot || s.md.mode = .dormant then s
    else if !ppsGoodEdge intervalNs then
      setClk s (fun c => { c with ppsGood := 0, ppsRejects := satU 32 (c.ppsRejects + 1) })
    else
      let sec := ppsSeconds s.clk elapsedS sinceSetNs
      let wasSet := (ppsSet s.clk sinceSetNs).isSome
      let q := s.clk.ppsQual
      let now := q || decide (1 ≤ s.clk.ppsGood)
      let t := stampT st
      let s := setClk s (fun c => { c with
        seconds := sec, setTime := if wasSet then none else c.setTime, firstEdge := false, ppsGone := false,
        ppsGood := Nat.min 2 (c.ppsGood + 1), ppsQual := now })
      let s := { s with tiu := { s.tiu with ppsT := some t, ppsTime := sec * 2 ^ 32 } }
      let (o, s) := assignOrd s t
      let s := match o with
        | some (n, f) =>
          if now then putAnchor s { ord := (nearestOrd n f).1, offset := (nearestOrd n f).2, time := sec * 2 ^ 32, chan := cueChan s,
                                    holdover := holdover s, paired := paired s && decide (cueChan s = 0) } else s
        | none => s
      let s := if wasSet then raise s 0x0504 0 sec else s
      if now && !q then raise s 0x0503 0 1 else s

/-- PPS_IN is lost. -/
def losePps (s : State) : State :=
  let q := s.clk.ppsQual
  let s := setClk s (fun c => { c with ppsQual := false, ppsGood := 0, ppsGone := true, ppsLostSeen := c.ppsLostSeen || q })
  if q then raise s 0x0503 0 0 else s

/-- PPS_LOST: no good edge for 1.1 s. -/
def execPpsLost (s : State) : Host.Outcome State Fault Refusal :=
  .next (if s.md.mode = .boot || s.md.mode = .dormant || s.clk.firstEdge then s else losePps s)

def specClkSetTime : CmdSpec :=
  { opcode := 0x0510, len := fun p => decide (p.length = 8), badParam := fun _ _ p _ => !zeroBytes p 6 2 }

def runClkSetTime (s : State) (_ : Packet) (_ : Nat) (p : List Byte) (_ : Option Nat) : Ran :=
  (stOK, [], setClk s (fun c => { c with setTime := some (fld p 0 6) }))

/-- CLK_SET_TIME (R162). -/
def execClkSetTime (p : Packet) (s : State) : Host.Outcome State Fault Refusal := .next (runPacket specClkSetTime runClkSetTime p s)

/-! ### Pulse gates (R163 to R168) -/

def gate (s : State) (g : Nat) : Gate := nth s.gates g {}

def setGate (s : State) (g : Nat) (f : Gate → Gate) : State := { s with gates := lmod s.gates g f }

/-- The smallest e_k at or after an ordinal, k ≥ 0 (R164). -/
def pulseFrom (s : State) (g c : Nat) : Nat :=
  let o := par s 0x0521 g
  let p := par s 0x0522 g
  if c ≤ o then o else o + cdiv (c - o) p * p

/-- The gate may still emit a pulse: enabled and not DONE. -/
def gateOpen (s : State) (g : Nat) : Bool := decide (par s 0x0520 g = 1) && !(gate s g).done

/-- R165: pulses left before DONE; none without a limit. -/
def gateLast (s : State) (g : Nat) : Bool :=
  decide (par s 0x0524 g ≠ 0) && decide (par s 0x0524 g ≤ (gate s g).counted + 1)

/-- The gates at `START`: pulse 0 is the first that the configuration gives. What they have counted and emitted stands, as
only a write of `pg.enable` or `pg.count` begins it anew (R165). -/
def gatesStart (s : State) : State := { s with gates := s.gates.map (fun g => { g with nextFrom := 0, high := none }) }

/-- A change of a gate's parameters at an ordinal (R164, R165). -/
def gateChanged (s : State) (g c : Nat) (enabled countWritten : Bool) : State :=
  setGate s g (fun x =>
    let x := { x with nextFrom := Nat.max x.nextFrom c }
    let x := if enabled then { x with counted := 0, emitted := 0, done := false } else x
    if countWritten then { x with counted := 0, done := false } else x)

/-- R166: a width or a low time below 1.0 ns at the cue channel's rate. -/
def gateBroken (s : State) (g : Nat) : Bool :=
  let r := ordRate s (cueChan s)
  let w := par s 0x0523 g
  let p := par s 0x0522 g
  decide (p ≤ w) || decide (w * 10 ^ 9 < r) || decide ((p - w) * 10 ^ 9 < r)

/-- A change waits at or below an ordinal of a channel's domain. -/
def pendBelow (s : State) (c n : Nat) : Bool := s.pend.any (fun x => decide (x.chan = c) && decide (x.ord ≤ n))

/-- An ordinal of the cue channel that a scheduled output may be due at: passed while the channel runs, so that no change can
be applied at it any more, or below the stop ordinal of the last `STOP`. Nothing is due in BOOT and SAFE, nor on the way
there (R167). -/
def dueNow (s : State) (n : Nat) : Bool :=
  !(s.md.mode = .boot || s.md.mode = .safe || (s.md.transit.map (·.target)) = some .safe) &&
  if running s (cueChan s) then decide (n < ordNext s (cueChan s))
  else match (chan s (cueChan s)).stopOrd with
    | some x => decide (n < x)
    | none => false

/-- PG_PULSE: the next pulse of a gate reaches its due instant; it is withheld where it reaches the gate late (R19). DESIGN
CHOICE, see assumption 65: a pulse withheld counts against `pg.count` all the same; the manual does not say. -/
def execPgPulse (g : Fin 2) (late : Bool) (s : State) : Host.Outcome State Fault Refusal :=
  let e := pulseFrom s g (gate s g).nextFrom
  .next (if !gateOpen s g || !dueNow s e || pendBelow s (cueChan s) e then s
    else
      let last := gateLast s g
      let fall := e + par s 0x0523 g
      let s := setGate s g (fun x => { x with nextFrom := e + 1, counted := x.counted + 1, done := last })
      let s := if late then outputLate s 0x0F g e
        else
          let s := setGate s g (fun x => { x with emitted := satU 62 (x.emitted + 1), high := some fall })
          let s := if edgeHeld s e then s else emit s (.pulse g e fall (par s 0x0525 g))
          markStreams s (g.val + 1) e
      if last then raise s 0x0505 g (gate s g).emitted (some (cueChan s, fall)) else s)

end Sys2Proof.Machine
end

