-- ==== Sys2Proof/Machine/Tiu.lean ====
section
/-! DEFINITION. The time-interval unit: stamps, their delivery, and interval statistics (chapter 16). -/
namespace Sys2Proof.Machine

def tiuIn (s : State) (i : Nat) : TiuInput := nth s.tiu.inputs i {}

def setTiuIn (s : State) (i : Nat) (f : TiuInput → TiuInput) : State :=
  { s with tiu := { s.tiu with inputs := lmod s.tiu.inputs i f } }

/-- The source code of a stamp input (R460). -/
def tiuCode (i : Nat) : Nat := 0x0500 + i

/-- The unit runs in every mode except BOOT and DORMANT (R462). -/
def tiuOn (s : State) : Bool := s.md.mode ≠ .boot && s.md.mode ≠ .dormant

/-- The 48 bytes of a stamp (Table 16-2). -/
def stampBytes (x : Stamp) : List Byte :=
  let b := leBytes 8 x.number ++ leBytes 8 x.t ++ leBytes 8 x.ord ++ leBytes 4 x.frac ++
    leBytes 4 (x.time % 2 ^ 32) ++ leBytes 6 (x.time / 2 ^ 32) ++ leBytes 2 x.source ++ leBytes 1 x.flags ++ zeros 3
  b ++ leBytes 4 (crc32c b)

/-- The ordinal of a stamp, where ORD_VALID is set. -/
def stampOrd (x : Stamp) : Option Nat := if bit x.flags 1 then some x.ord else none

/-! ### Interval statistics (R472, R473) -/

/-- Whether `stat.start` or `stat.stop` names an input's edge. -/
def statNames (v i : Nat) (rising : Bool) : Bool :=
  decide (v % 65536 = tiuCode i) && (bit v 16 != rising)

/-- Latches the results of N intervals (R473). -/
def statLatch (x : StatUnit) (n : Nat) : StatUnit :=
  { x with mean := (2 * x.s1 * 2 ^ 16 + n) / (2 * n),
           sd := isqrt ((n * x.s2 - x.s1 * x.s1) * 2 ^ 32 / (n * (n - 1))),
           min := x.lo, max := x.hi, n := 0, s1 := 0, s2 := 0, lo := 0, hi := 0, isOpen := none }

/-- A stop stamp closes the open interval. -/
def statClose (x : StatUnit) (t : Nat) : StatUnit :=
  match x.isOpen with
  | none => x
  | some t0 =>
    let d := dLocal t t0
    if d = 0 || decide (2 ^ 63 ≤ d) then x
    else if 2 ^ 44 ≤ d then { x with isOpen := none, discards := satU 32 (x.discards + 1) }
    else { x with isOpen := none, n := x.n + 1, s1 := x.s1 + d, s2 := x.s2 + d * d,
                  lo := if x.n = 0 then d else Nat.min x.lo d, hi := Nat.max x.hi d }

/-- A start stamp opens an interval, or is ignored and counted while one is open. -/
def statOpen (x : StatUnit) (t : Nat) : StatUnit :=
  match x.isOpen with
  | none => { x with isOpen := some t, collecting := true }
  | some _ => { x with discards := satU 32 (x.discards + 1) }

/-- One stamp reaches one statistics unit. -/
def statTake (s : State) (u i : Nat) (rising : Bool) (t : Nat) : State :=
  if par s 0x1013 u ≠ 1 then s
  else
    let a := statNames (par s 0x1010 u) i rising
    let b := statNames (par s 0x1011 u) i rising
    let set := fun (s : State) f => { s with tiu := { s.tiu with stats := lmod s.tiu.stats u f } }
    let s := if b then set s (fun x => statClose x t) else s
    let n := par s 0x1012 u
    if b && decide ((nth s.tiu.stats u {}).n = n) then
      let s := set s (fun x => { statLatch x n with collecting := false })
      let s := if par s 0x1014 u = 1 then s else setPar s 0x1013 u 0
      raise s 0x1002 u (nth s.tiu.stats u {}).discards
    else if a then set s (fun x => statOpen x t) else s

/-! ### Delivery (R469, R470) -/

/-- Capture units and ports of an input withhold acknowledge. -/
def tiuBlocked (s : State) (i : Nat) (x : Stamp) : Bool :=
  capBlocked s (tiuCode i) || portFull s (tiuCode i) ((stampOrd x).getD 0) 48

/-- The oldest stamps of an input leave its FIFO, up to `fuel` of them. -/
def tiuDrain : Nat → State → Nat → State
  | 0, s, _ => s
  | k + 1, s, i =>
    match (tiuIn s i).fifo with
    | [] => s
    | x :: rest =>
      if tiuBlocked s i x then s
      else
        let s := setTiuIn s i (fun q => { q with fifo := rest })
        let n := (stampOrd x).getD (ordNext s (cueChan s))
        let s := (capsOf s (tiuCode i)).foldl (fun s u =>
          pushItem s u { typ := 0x14, ord := n, last := n, index := x.ord, body := stampBytes x }) s
        let s := portFeed s (tiuCode i) n (stampBytes x) 0
        tiuDrain k s i

/-- Every input's FIFO goes on. -/
def tiuDrainAll (s : State) : State := (List.range 32).foldl (fun s i => tiuDrain 512 s i) s

/-- The routed task edges of an input (R236): late ones as R244 has it. -/
def routeTasks (s : State) (i : Nat) (rising : Bool) (n frac : Nat) : State :=
  (List.range 64).foldl (fun s k =>
    if statNames (par s 0x0808 k) i rising && decide (par s 0x0808 k ≠ 0) then
      lateTask s (k / 8) { ord := n, input := k % 8, src := 9, timed := true, frac }
    else s) s

/-- A condition item of a stamped source arrives at the sheets (R222). -/
def stampItem (s : State) (kind inst n frac : Nat) (tests : List Nat) (level : Int) : State :=
  { s with cue := { s.cue with arriving := s.cue.arriving ++
    [{ kind, inst, ord := n, tests, level, flags := 32, frac }] } }

/-! ### Stamping (R463 to R466) -/

/-- Builds the stamp of an edge of an input. -/
def makeStamp (s : State) (i number : Nat) (rising coarse : Bool) (st : RawStamp) : Stamp × State :=
  let fail := !coarse && calFail st
  let t := if coarse then coarseT st else stampT st
  let (o, s) := assignOrd s t
  let (time, s) := stampTime s t o
  let flags := b2n rising + 2 * b2n o.isSome + 4 * b2n (timeValid s) + 8 * b2n (holdover s) +
    16 * b2n (paired s && o.isSome && decide (cueChan s = 0)) + 32 * b2n coarse + 64 * b2n fail
  ({ number, t, ord := (o.getD (2 ^ 64 - 1, 0)).1, frac := (o.getD (0, 0)).2, time, source := tiuCode i, flags },
   { s with tiu := { s.tiu with lastT := t } })

/-- The event of a stamp: its ordinal and TIME80 with their flags (R471, R454). -/
def stampEvent (s : State) (code inst detail : Nat) (x : Stamp) : Event :=
  { code, inst, detail, ord := (stampOrd x).map (fun n => (cueChan s, n)),
    time := if bit x.flags 2 then some x.time else none, holdover := bit x.flags 3, paired := bit x.flags 4 }

/-- A stamp finds its FIFO of 512 full: the block of 64 numbers that holds it is discarded, with the stamps of that block
that the FIFO holds (R24, R470). -/
def tiuOverflow (s : State) (i : Nat) : State :=
  let q := tiuIn s i
  if q.dropping.isSome || decide (q.fifo.length < 512) then s
  else
    let f := q.issued / 64 * 64
    setTiuIn s i (fun q => { q with dropping := some f, fifo := q.fifo.filter (fun x => decide (x.number < f)) })

/-- A stamp of the peer's marker pulse (R507): a rising edge on the marker input of an alignment in progress. -/
def hearMark (s : State) (i : Nat) (rising : Bool) (x : Stamp) : State :=
  if s.pair.started && s.pair.mine.isNone && rising && decide (i = par s 0x1207 0) && decide (s.pair.heard.length < 16) then
    match stampOrd x with
    | some n => { s with pair := { s.pair with heard := s.pair.heard ++ [n * 65536 + x.frac / 65536] } }
    | none => s
  else s

/-- A selected edge, not too close to the one before, is stamped and goes to every consumer of its input. Stamps of a gap
take numbers and go nowhere (R470). -/
def stampInput (s : State) (i : Nat) (rising : Bool) (st : RawStamp) : Stamp × State :=
  let q := tiuIn s i
  let (x, s) := makeStamp s i q.issued rising false st
  let s := tiuOverflow s i
  let drop := (tiuIn s i).dropping.isSome
  let s := setTiuIn s i (fun q => { q with issued := q.issued + 1, calSeen := q.calSeen || calFail st })
  let s := if calFail st then raiseLatched s 0x1003 i (uns 32 ((st.r2 : Int) - st.r1)) else s
  if drop then (x, s)
  else
    let s := hearMark (setTiuIn s i (fun q => { q with fifo := q.fifo ++ [x] })) i rising x
    let s := (List.range 4).foldl (fun s u => statTake s u i rising x.t) s
    let s := match stampOrd x with
      | some n => routeTasks s i rising n x.frac
      | none => s
    let s := if par s 0x1005 i = 1 then
        postWindowed s (stampEvent s 0x1001 i (1 + 65536 * (x.number % 65536)) x) id
      else s
    (x, tiuDrain 512 s i)

/-- `tiu.edge` names an edge's direction (R463). -/
def polarity (s : State) (i : Nat) (rising : Bool) : Bool :=
  decide (par s 0x1002 i = 2) || decide (par s 0x1002 i = (if rising then 0 else 1))

/-- An enabled input selects an edge. -/
def edgeSelected (s : State) (i : Nat) (rising : Bool) : Bool := par s 0x1001 i = 1 && polarity s i rising

/-- A selected edge within 2.0 ns of the one before: counted, no number (R463). -/
def deadEdge (s : State) (i : Nat) : State :=
  setTiuIn s i (fun q => { q with dead := satU 32 (q.dead + 1), deadSeen := true })

/-- An input whose edges EV_EDGE brings: a ball, or an internal channel on a source other than a comparator or none. -/
def edgeSource (s : State) (i : Nat) : Bool :=
  decide (i < 16) ||
  (let c := par s 0x1004 (i - 16)
   (decide (0x10 ≤ c) && decide (c < 0x12)) || (decide (0x20 ≤ c) && decide (c < 0x24)) ||
   (decide (0x40 ≤ c) && decide (c < 0x80)))

/-- An edge that an EV input selects wakes the device where `tiu.wake` says so, with its stamp where it was stamped (R100). -/
def evWake (s : State) (i : Nat) (t : Option Nat) : State :=
  if decide (i < 16) && decide (par s 0x1006 i = 1) then fireWake s 2 t else s

/-- EV_EDGE: an edge on a stamp input, and the time since the previous selected edge of it, in ps. -/
def execEvEdge (i : Fin 32) (rising : Bool) (st : RawStamp) (sinceLastPs : Nat) (s : State) :
    Host.Outcome State Fault Refusal :=
  .next (if !tiuOn s || !edgeSource s i || !polarity s i rising then s
    else if par s 0x1001 i ≠ 1 then evWake s i none
    else if sinceLastPs < 2000 then evWake (deadEdge s i) i none
    else
      let (x, s) := stampInput s i rising st
      if (tiuIn s i).dropping.isSome then evWake s i none
      else if 16 ≤ i.val then s
      else
        let s := match stampOrd x with
          | none => s
          | some n =>
            let s := stampItem s 0x04 i n x.frac [if rising then 2 else 3, 4] 0
            markStreams s (0x10 + i) n
        evWake s i (if bit x.flags 2 then some x.time else none))

/-! ### TIU_ANCHOR_READ (R468) -/

/-- The latest anchor as Table 16-3 lays it out. Its offset field is unsigned: an edge ahead of its nearest ordinal is given
from the ordinal before it. DEDUCED, see assumption 17. -/
def anchorBytes (s : State) : List Byte :=
  match s.tiu.anchor with
  | none => zeros 24 ++ leBytes 8 s.tiu.rateMhz
  | some a =>
    leBytes 8 (anchorAt a / 2 ^ 32) ++ leBytes 4 (anchorAt a % 2 ^ 32) ++ leBytes 4 (a.time % 2 ^ 32) ++ leBytes 6 (a.time / 2 ^ 32) ++
    leBytes 1 a.chan ++ leBytes 1 (1 + 2 * b2n a.holdover + 4 * b2n a.paired) ++ leBytes 8 s.tiu.rateMhz

def specTiuAnchorRead : CmdSpec := { opcode := 0x1050 }

def runTiuAnchorRead (s : State) (_ : Packet) (_ : Nat) (_ : List Byte) (_ : Option Nat) : Ran := (stOK, anchorBytes s, s)

def execTiuAnchorRead (p : Packet) (s : State) : Host.Outcome State Fault Refusal :=
  .next (runPacket specTiuAnchorRead runTiuAnchorRead p s)

/-- A comparator that no stamping internal channel selects is stamped by the coarse counter alone (R461). -/
def cmpCoarse (s : State) (n : Nat) : Bool :=
  !(List.range 16).any (fun k => decide (par s 0x1004 k = n) && decide (par s 0x1001 (16 + k) = 1))

end Sys2Proof.Machine
end

