-- ==== Sys2Proof/Machine/Analog.lean ====
section
/-! DEFINITION. The auxiliary converter, the comparators and the precision DACs (chapter 15). -/
namespace Sys2Proof.Machine

/-! ### The auxiliary sequence (R439 to R450) -/

/-- L, the entries of the sequence. -/
def auxL (s : State) : Nat := Nat.max 1 (par s 0x0F02 0)

/-- The modes in which the sequence runs (R440). -/
def auxMode (m : Mode) : Bool := m = .idle || m = .analyse || m = .record || m = .watch || m = .service

/-- The sequence begins at pass 0 as a new stream. -/
def auxStart (s : State) : State :=
  if s.aux.running then { s with aux := { s.aux with stopping := false } }
  else auxLatch { s with aux := { s.aux with running := true, stopping := false, next := 0, buf := {} } }

/-- The sequence stops at the end of the slot in progress (R440). -/
def auxHalt (s : State) : State := { s with aux := { s.aux with running := false, stopping := false } }

/-- Follows `aux.enable` after a write or a change of mode. -/
def auxFollow (s : State) : State :=
  if !auxMode s.md.mode then auxHalt s
  else if par s 0x0F01 0 = 1 then auxStart s
  else if s.aux.running then
    (if s.aux.next % auxL s = 0 then auxHalt s else { s with aux := { s.aux with stopping := true } })
  else s

/-- VALUE of R443. -/
def auxValue (codes : List Int) (n : Nat) : Int :=
  let sum := (codes.map (satS 14)).foldl (· + ·) 0
  satS 24 ((2048 * sum + n) / ((2 * n : Nat) : Int))

/-- R447: a check fails when the magnitude of the mean of its conversions, at 0.125 mV each, exceeds the threshold. -/
def checkFails (codes : List Int) (mv : Nat) : Bool :=
  decide (16 * 8 * mv < (codes.foldl (· + ·) 0).natAbs)

/-- A result leaves for its destinations (R450). -/
def auxDeliver (s : State) (e word : Nat) (value : Int) (ovr settle : Bool) : State :=
  let live := running s (cueChan s)
  let n := if live then ordNext s (cueChan s) else 2 ^ 64 - 1
  let at_ := ordNext s (cueChan s)
  let fl := b2n ovr + 2 * b2n settle
  let s := (capsOf s 0x0400).foldl (fun s u =>
    pushItem s u { typ := 0x13, ord := at_, last := at_, index := n, body := leBytes 4 word, flags := fl }) s
  let s := portFeed s 0x0400 n (leBytes 4 word ++ leBytes 8 n ++ zeros 4) fl
  if live then { s with cue := { s.cue with arriving := s.cue.arriving ++
    [{ kind := 0x05, inst := e, ord := n, level := value, flags := 32 + fl }] } }
  else s

/-- The result stream can go on: no gap covers the next result, and no consumer withholds acknowledge. -/
def auxOpen (s : State) : Bool :=
  s.aux.running && (match s.aux.buf.dropping with
    | none => true
    | some f => decide (s.aux.next < f)) && !capBlocked s 0x0400 && !portFull s 0x0400 (ordNext s (cueChan s)) 16

/-- AUX_SLOT_RESULT: the next slot of the sequence completes, with its conversion codes corrected for offset and gain,
whether one of them overloaded, and the codes of its check interval on a check pass. -/
def execAuxSlotResult (codes : List Int) (overload : Bool) (checkCodes : List Int) (s : State) :
    Host.Outcome State Fault Refusal :=
  let m := s.aux.next
  let e := m % auxL s
  let pass := m / auxL s
  let n := par s 0x0F12 e
  let check := decide (par s 0x0F14 e ≠ 0) && decide (pass % par s 0x0F14 e = 0)
  .next (if !auxOpen s || decide (codes.length ≠ n) || (check && decide (checkCodes.length ≠ 16)) then s
    else
      let x := nth s.aux.entries e {}
      let opened := if check then checkFails checkCodes (par s 0x0F06 0) else x.isOpen
      let settle := decide (x.settled < 4)
      let value := auxValue codes n
      let word := uns 24 value * 256 + 128 * b2n overload + 64 * b2n opened + 32 * b2n settle + e
      let s := { s with aux := { s.aux with
        next := m + 1, ovrSeen := s.aux.ovrSeen || overload,
        entries := lmod s.aux.entries e (fun x => { x with
          settled := Nat.min 4 (x.settled + 1), isOpen := opened, ovrSeen := x.ovrSeen || overload, result := word }) } }
      let s := auxLatch s
      let s := if opened = x.isOpen then s else raise s 0x0F01 e (b2n opened + 65536 * (pass % 65536))
      let s := if overload then raiseLatched s 0x0F02 e (pass % 2 ^ 32) else s
      let s := auxMarkers (s.aux.buf.ended.length + 1) (auxDeliver s e word value overload settle)
      if s.aux.stopping && decide ((m + 1) % auxL s = 0) then auxHalt s else s)

/-- `aux.pass_time` in ns (R439, R442, R446). -/
def auxPassTime (s : State) (checks : Bool) : Nat :=
  (List.range (auxL s)).foldl (fun a i =>
    a + 10 * par s 0x0F13 i + 10 * par s 0x0F12 i +
      (if checks && decide (par s 0x0F14 i ≠ 0) then 1000 * par s 0x0F15 i + 160 else 0)) 0

/-! ### Comparators (R451 to R454) -/

def comparator (s : State) (n : Nat) : Comparator := nth s.cmps n {}

/-- Follows `cmp.enable` and the mode (R451): a comparator enters BELOW when it is enabled, as it does when it runs again after
DORMANT. -/
def cmpFollow (s : State) (n : Nat) : State :=
  { s with cmps := lmod s.cmps n (fun c =>
    let on := decide (par s 0x0F20 n = 1) && tiuOn s
    if on && !c.enabled then { c with enabled := true, st := .below } else { c with enabled := on }) }

/-- Hysteresis in µV. -/
def cmpHyst (s : State) (n : Nat) : Int := if par s 0x0F23 n = 0 then 0 else (2 ^ par s 0x0F23 n * 1000 : Nat)

/-- R451: T_L + 2h is greater than T_H. -/
def cmpBroken (s : State) (n : Nat) : Bool :=
  decide (parI s 0x0F21 n * 2000 < parI s 0x0F22 n * 2000 + 2 * cmpHyst s n)

/-- The state that a pin voltage moves a comparator to, by one line of the table of R452; `fast`: a swing through INSIDE
in less than 50 ns. -/
def cmpNext (s : State) (n : Nat) (v : Int) (fast : Bool) : CmpState :=
  let hi := parI s 0x0F21 n * 2000
  let lo := parI s 0x0F22 n * 2000
  let h := cmpHyst s n
  match (comparator s n).st with
  | .below => if fast && decide (hi < v) then .above else if lo + h < v then .inside else .below
  | .inside => if hi < v then .above else if v < lo then .below else .inside
  | .above => if fast && decide (v < lo) then .below else if v < hi - h then .inside else .above

/-- The edges of a move, as bits of `cmp.event`: RISE_HIGH, FALL_LOW, ENTER, LEAVE (R452). -/
def cmpEdges (a b : CmpState) : List Nat :=
  match a, b with
  | .inside, .above => [0, 3]
  | .inside, .below => [1, 3]
  | .below, .inside => [2]
  | .above, .inside => [2]
  | .below, .above => [0]
  | .above, .below => [1]
  | _, _ => []

/-- A move goes upward. -/
def cmpUp (a b : CmpState) : Bool :=
  match a, b with
  | .below, _ => true
  | .inside, .above => true
  | _, _ => false

/-- STATE of Table 15-8. -/
def cmpCode : CmpState → Nat
  | .below => 0 | .inside => 1 | .above => 2

/-- The internal channels that stamp a comparator's edge of a direction. -/
def cmpInputs (s : State) (n : Nat) (rising : Bool) : List Nat :=
  ((List.range 16).filter (fun k => decide (par s 0x1004 k = n))).map (16 + ·) |>.filter (fun i => edgeSelected s i rising)

/-- An edge of a comparator at its internal channels (R460, R463). -/
def cmpStamp (s : State) (n : Nat) (rising : Bool) (st : RawStamp) : State :=
  (cmpInputs s n rising).foldl (fun s i =>
    let t := stampT st
    let close := match (tiuIn s i).lastEdge with
      | some b => decide (dLocal t b < 4000)
      | none => false
    let s := setTiuIn s i (fun q => { q with lastEdge := some t })
    if close then deadEdge s i else (stampInput s i rising st).2) s

/-- CMP_CROSSING: the pin of a comparator stands at a voltage, and the comparator moves. -/
def execCmpCrossing (n : Fin 16) (microVolts : Int) (st : RawStamp) (fast : Bool) (s : State) :
    Host.Outcome State Fault Refusal :=
  let a := (comparator s n).st
  let b := cmpNext s n microVolts fast
  .next (if !tiuOn s || !(comparator s n).enabled || decide (a = b) then s
    else
      let es := cmpEdges a b
      let up := cmpUp a b
      let s := { s with cmps := lmod s.cmps n (fun c => { c with
        st := b, sticky := c.sticky ||| bitmapOf es, edges := (c.edges + es.length) % 2 ^ 64 }) }
      -- the stamp: by a channel that selects the comparator, else by the coarse counter (R461)
      let coarse := cmpCoarse s n
      let (x, s) := makeStamp s 0 0 up coarse st
      let s := cmpStamp s n up st
      let s := match stampOrd x with
        | some o => stampItem s 0x03 n o x.frac (es.map (fun e => nth [4, 5, 2, 3] e 2)) (if b = .inside then 1 else 0)
        | none => s
      let s := es.foldl (fun s e =>
        if bit (par s 0x0F25 n) e then
          postWindowed s (stampEvent s 0x0F03 n ((1 <<< e) + 16 * cmpCode b + 65536) x)
            (fun w => (w % 16 ||| (1 <<< e)) + 16 * cmpCode b)
        else s) s
      if es.any (bit (par s 0x0F26 n)) then fireWake s 1 (if bit x.flags 2 then some x.time else none) else s)

/-! ### Precision DACs (R455 to R459) -/

def pdacOf (s : State) (d : Nat) : Pdac := nth s.pdac.dacs d {}

def setPdac (s : State) (d : Nat) (f : Pdac → Pdac) : State :=
  { s with pdac := { s.pdac with dacs := lmod s.pdac.dacs d f } }

/-- Drives a PDAC's output. -/
def drivePdac (s : State) (d span code : Nat) : State :=
  let x := pdacOf s d
  let s := setPdac s d (fun x => { x with outSpan := span, outCode := code })
  if x.outSpan = span && decide (x.outCode = code) then s else emit s (.pdac d span code)

/-- Every PDAC goes to its clear span and code (R458). Changes not scheduled for an ordinal are dropped: the clear
wins. -/
def clearPdacs (s : State) : State :=
  let s := (List.range 8).foldl (fun s d =>
    drivePdac (setPdac s d (fun x => { x with cleared := true })) d (par s 0x0F32 d) (par s 0x0F33 d)) s
  { s with pdac := { s.pdac with due := s.pdac.due.filter (fun x => x.ord.isSome || (pdacOf s x.pdac).held) } }

/-- CLR_N falls. -/
def execClrNFall (s : State) : Host.Outcome State Fault Refusal :=
  .next (if s.pdac.clrLow then s
    else
      let s := clearPdacs { s with pdac := { s.pdac with clrLow := true } }
      raise s 0x0F05 0 0xFF)

/-- CLR_N rises: writes are accepted again, and the outputs stay. -/
def execClrNRise (s : State) : Host.Outcome State Fault Refusal :=
  .next { s with pdac := { s.pdac with clrLow := false } }

/-- A change of a PDAC's code or span is handed to its island: due at an ordinal, or at the next island clock (R456). The
entries of one command for one PDAC are one change. -/
def pdacSchedule (s : State) (d : Nat) (ord span code : Option Nat) (tag : Nat) (told : Bool) : State :=
  { s with pdac := { s.pdac with due := s.pdac.due ++ [{ pdac := d, ord, span, code, tag, told }] } }

/-- A change that falls due at a PDAC is discarded: it is cleared and its output is not held (R458). -/
def pdacDiscards (s : State) (d : Nat) : Bool := (pdacOf s d).cleared && !(pdacOf s d).held

/-- `CUE_DISCARDED` for a `SET_PARAM` of a tag at a cue ordinal, once for the command (Table 1-10): its other changes that
are due no longer tell it. -/
def pdacTell (s : State) (n tag : Nat) : State :=
  raise { s with pdac := { s.pdac with due := s.pdac.due.map (fun x =>
    if x.ord = some n && decide (x.tag = tag) then { x with told := true } else x) } }
    0x0213 0 (tag + 0x0003 * 65536) (some (cueChan s, n))

/-- The change of a PDAC that is due next. -/
def pdacNext (s : State) (d : Nat) : Option PdacDue := s.pdac.due.find? (fun x => decide (x.pdac = d))

/-- Takes the change at the front of a PDAC's changes. -/
def pdacDrop (s : State) (x : PdacDue) : State := { s with pdac := { s.pdac with due := s.pdac.due.erase x } }

/-- A change reaches its PDAC: the commanded value moves, and the output with it unless it is held (R503) or balls are
driven from the test access port (R551). A change without span or code ends the hold at a takeover (R517). -/
def pdacApply (s : State) (x : PdacDue) : State :=
  let ends := x.span.isNone && x.code.isNone
  let s := setPdac s x.pdac (fun p => { p with span := x.span.getD p.span, code := x.code.getD p.code
                                               held := p.held && !ends, cleared := p.cleared && (ends || s.pdac.clrLow) })
  let p := pdacOf s x.pdac
  if p.held || p.cleared || tapDrives s then s else drivePdac s x.pdac p.span p.code

/-- PDAC_UPDATE: the next change of a PDAC reaches its island; `late`: after its due instant (R19). Changes to a held
PDAC are never discarded. -/
def execPdacUpdate (d : Fin 8) (late : Bool) (s : State) : Host.Outcome State Fault Refusal :=
  match pdacNext s d with
  | none => .next s
  | some x =>
    let s := pdacDrop s x
    .next (match x.ord with
    | some n =>
      if x.span.isNone && x.code.isNone then pdacApply s x
      else if pdacDiscards s d then (if x.told then s else pdacTell s n x.tag)
      else if late then
        outputLate (setPdac s d (fun p => { p with lateSeen := true })) 0x11 d n
      else pdacApply s x
    | none => if s.pdac.clrLow && !(pdacOf s d).held then s else pdacApply s x)

/-! ### Held outputs (R503) -/

/-- The outputs are held: trigger outputs and gates low, PDACs at their clear values with HELD set and CLEARED clear. -/
def holdOutputs (s : State) : State :=
  let s := emit { s with pair := { s.pair with outHeld := true } } .outputsLow
  (List.range 8).foldl (fun s d =>
    drivePdac (setPdac s d (fun p => { p with held := true, cleared := s.pdac.clrLow })) d (par s 0x0F32 d) (par s 0x0F33 d)) s

/-- The hold ends: each PDAC drives its commanded value. -/
def releaseOutputs (s : State) : State :=
  if !s.pair.outHeld then s else
  let s := { s with pair := { s.pair with outHeld := false } }
  (List.range 8).foldl (fun s d =>
    let p := pdacOf s d
    if !p.held then s
    else
      let s := setPdac s d (fun p => { p with held := false })
      if p.cleared then s else drivePdac s d p.span p.code) s

/-- The value that a PDAC commands, as R459 compares it: span and code. -/
def pdacWants (s : State) (d : Nat) : Nat × Nat :=
  let p := pdacOf s d
  if p.cleared || p.held then (par s 0x0F32 d, par s 0x0F33 d) else (p.span, p.code)

/-- Whether a reading is off by more than 1% of the commanded value plus 0.1% of the span. The 0.9 V centre of spans B0
and B1 is 36,864 and 73,728 of their LSBs. -/
def pdacOff (want : Nat × Nat) (reading : Int) : Bool :=
  let value : Int := match want.1 with
    | 2 => 36864 + (want.2 : Int) - 32768
    | 3 => 73728 + (want.2 : Int) - 32768
    | _ => want.2
  decide (10 * value.natAbs + 65536 < 1000 * (reading - (want.2 : Int)).natAbs)

/-- PDAC_COMPLIANCE: a reading has stood outside the bound of R459, or within it, for 100 µs. -/
def execPdacCompliance (d : Fin 8) (reading : Int) (s : State) : Host.Outcome State Fault Refusal :=
  .next (if s.md.mode = .boot || s.md.mode = .dormant then s
    else
      let off := pdacOff (pdacWants s d) reading
      let was := (pdacOf s d).compliance
      let s := setPdac s d (fun p => { p with
        measured := satS 32 reading, compliance := off, complianceSeen := p.complianceSeen || off })
      if off = was then s else raise s 0x0F04 d (b2n off + 65536 * uns 16 reading))

/-- A write of `pdac.wiring` (R455): spans to U0 or I, codes to 0. -/
def pdacWired (s : State) (d : Nat) : State :=
  let span := if par s 0x0F36 d = 1 then 4 else 0
  let s := setPar (setPar (setPar (setPar s 0x0F30 d span) 0x0F32 d span) 0x0F31 d 0) 0x0F33 d 0
  let s := setPdac s d (fun p => { p with span, code := 0 })
  drivePdac s d span 0

end Sys2Proof.Machine
end

