-- ==== Sys2Proof/Machine/Flags.lean ====
section
/-! DEFINITION. The narrowing, saturation and flag computations of the engines (R333, R334, Table 11-7). -/
namespace Sys2Proof.Machine

/-- round(v / 2^k) of R334: half up. -/
def rndUp (k : Nat) (v : Int) : Int := if k = 0 then v else (v + (2 ^ (k - 1) : Nat)) / (2 ^ k : Nat)

/-- The result of RNDI on a register's value (Table 11-7), which states none for b = 0: it is free there. DESIGN CHOICE, see
assumption 12. -/
def rndi (b v : Nat) : Nat := if b = 0 then Config.rndiZero v % 2 ^ 32 else uns 32 (rndUp b (sgn 32 v))

/-- Saturation to w bits as a 32-bit register pattern, and whether it clamps. -/
def satTo (w : Nat) (v : Int) : Nat × Bool := (uns 32 (satS w v), satHit w v)

/-- A multiplier operand: bits [17:0], signed (R333). -/
def mul18 (d : Nat) : Int := sgn 18 d

/-- Z and N of CMP (R332). -/
def cmpFlags (a b : Nat) : Bool × Bool := (decide (a = b), decide (sgn 32 a < sgn 32 b))

/-- Z and N of CMPU. -/
def cmpuFlags (a b : Nat) : Bool × Bool := (decide (a = b), decide (a < b))

/-- ACC ← sat48(ACC + term), and whether it clamps. -/
def accSum (acc term : Int) : Int × Bool := (satS 48 (acc + term), satHit 48 (acc + term))

end Sys2Proof.Machine
end

