-- ==== Sys2Proof/Machine/Display.lean ====
section
/-! DEFINITION. Display outputs: timing, planes, composition, links (R312 to R322). -/
namespace Sys2Proof.Machine

def disp (s : State) (o : Nat) : DisplayOut := nth s.disps o {}

def setDisp (s : State) (o : Nat) (f : DisplayOut → DisplayOut) : State := { s with disps := lmod s.disps o f }

/-- The modes in which an output runs (R320). -/
def dispMode (m : Mode) : Bool := m = .idle || m = .analyse || m = .record || m = .service

/-- The modes in which the display islands are on. -/
def dispPowered (m : Mode) : Bool := dispMode m || m = .safe

/-- An output follows `disp.enable`, the mode and its fitting. -/
def dispFollow (s : State) (o : Nat) : State :=
  let on := fitted s.variant 0x0D o && dispMode s.md.mode && decide (par s 0x0B20 o = 1)
  setDisp s o (fun d => if on = d.running then d else { d with running := on, scanX := 0, scanY := 0, aborted := false })

def dispWidth (s : State) (o : Nat) : Nat := par s 0x0B22 o % 65536
def dispHeight (s : State) (o : Nat) : Nat := par s 0x0B23 o % 65536

/-- The four fields of a timing parameter: active, front porch, sync, back porch. -/
def timingFields (v : Nat) : List Nat := [bits v 15 0, bits v 31 16, bits v 47 32, bits v 63 48]

/-- R313: the timing of an output lies outside Table 10-3. -/
def timingBroken (s : State) (o : Nat) : Bool :=
  let h := timingFields (par s 0x0B22 o)
  let v := timingFields (par s 0x0B23 o)
  let k := par s 0x0B21 o
  let porch := fun (l : List Nat) => (l.drop 1).any (fun x => decide (x < 1) || decide (4095 < x))
  let sum := fun (l : List Nat) => l.foldl (· + ·) 0
  decide (k < 25000) || decide ((if o = 2 then 165000 else 600000) < k) ||
  decide (nth h 0 0 < 64) || decide ((if o = 2 then 1920 else 3840) < nth h 0 0) ||
  decide (nth v 0 0 < 64) || decide ((if o = 2 then 1200 else 2160) < nth v 0 0) ||
  porch h || porch v || decide (8192 < sum h) || decide (4096 < sum v)

/-! ### Links (R314) -/

/-- Bits per channel of an output. -/
def bpc (s : State) (o : Nat) : Nat := if o = 2 then 8 else nth [6, 8, 10] (bits (par s 0x0B25 o) 13 12) 8

/-- The lanes of a code of lanes: 1, 2 or 4. -/
def laneStep (n : Nat) : Nat := if 4 ≤ n then 4 else if 2 ≤ n then 2 else n

/-- kbit/s of a lane at a rate code. -/
def laneKbps (r : Nat) : Nat := nth [1620000, 2700000, 5400000, 8100000] r 0

/-- LINK_SHORT: the trained bandwidth is below what the pixels need. -/
def linkShort (s : State) (o : Nat) : Bool :=
  let d := disp s o
  d.trained && decide (d.lanes * laneKbps d.rate * 8 < par s 0x0B21 o * 3 * bpc s o * 10)

/-- The detail of `DISPLAY_LINK`. -/
def linkDetail (s : State) (o : Nat) : Nat :=
  let d := disp s o
  if d.trained then 1 + 2 * b2n (linkShort s o) + 4 * d.lanes + 32 * d.rate else 0

/-- Trains a link at the highest lanes and rate that the sink and `disp.link` allow. -/
def trainLink (s : State) (o : Nat) (k : SinkFacts) : State :=
  let lanes := Nat.min (laneStep k.lanes) (laneStep (bits (par s 0x0B25 o) 2 0))
  let rate := Nat.min (Nat.min k.rate 3) (bits (par s 0x0B25 o) 5 4)
  if lanes = 0 then s
  else
    let s := setDisp s o (fun d => { d with trained := true, lanes, rate })
    raise s 0x0B04 o (linkDetail s o)

/-- A link goes down. -/
def dropLink (s : State) (o : Nat) : State :=
  if (disp s o).trained then
    raise (setDisp s o (fun d => { d with trained := false, lanes := 0, rate := 0 })) 0x0B04 o 0
  else s

/-- HPD_PLUG: HPD has been high for 100 ms. -/
def execHpdPlug (o : Fin 2) (sink : SinkFacts) (s : State) : Host.Outcome State Fault Refusal :=
  .next (if !fitted s.variant 0x0D o || !dispPowered s.md.mode || (disp s o).hpd then s
    else trainLink (setDisp s o (fun d => { d with hpd := true })) o sink)

/-- HPD_UNPLUG: HPD has been low for more than 2 ms. -/
def execHpdUnplug (o : Fin 2) (s : State) : Host.Outcome State Fault Refusal :=
  .next (if !(disp s o).hpd then s else dropLink (setDisp s o (fun d => { d with hpd := false })) o)

/-- IRQ_HPD: the link status is read and, if the link has failed, it is trained again. -/
def execIrqHpd (o : Fin 2) (linkOk : Bool) (sink : SinkFacts) (s : State) : Host.Outcome State Fault Refusal :=
  .next (if !(disp s o).hpd || linkOk then s else trainLink (dropLink s o) o sink)

/-! ### Planes (R315 to R317) -/

/-- A plane's settings as its parameters hold them. -/
def planeNow (s : State) (i : Nat) : PlaneView :=
  let src := par s 0x0B31 i
  { enable := decide (par s 0x0B30 i = 1), source := src, addr := par s 0x0B32 i, stride := par s 0x0B33 i,
    width := par s 0x0B34 i % 65536, height := par s 0x0B34 i / 65536,
    x := par s 0x0B35 i % 65536, y := par s 0x0B35 i / 65536, format := par s 0x0B36 i,
    orient := par s 0x0B37 i, alpha := par s 0x0B38 i,
    latched := if src = 0 then none else (nth s.dus (src - 1) {}).newest }

/-- Width and height of a plane on screen. -/
def planeExtent (v : PlaneView) : Nat × Nat := if v.orient % 2 = 1 then (v.height, v.width) else (v.width, v.height)

/-- Bytes per pixel of a format (Table 10-2). -/
def formatBytes (f : Nat) : Nat := nth [4, 2, 4, 1] f 4

/-- R316, R317: a memory plane's address and stride, and every plane's place on the screen. -/
def planeBroken (s : State) (i : Nat) : Bool :=
  let v := planeNow s i
  let e := planeExtent v
  (v.source = 0 && (decide (v.addr % 256 ≠ 0) || decide (v.stride % 256 ≠ 0) ||
    decide (v.stride < v.width * formatBytes v.format))) ||
  decide (dispWidth s (i / 2) < v.x + e.1) || decide (dispHeight s (i / 2) < v.y + e.2)

/-- R317: an enabled plane of a density unit has the size and format of its renders. -/
def planeMismatch (s : State) (i : Nat) : Bool :=
  let v := planeNow s i
  v.enable && decide (v.source ≠ 0) &&
  (let u := v.source - 1
   decide (v.width ≠ par s 0x0B02 u) || decide (v.height ≠ par s 0x0B03 u) ||
   decide (v.format ≠ (if par s 0x0B10 u = 0 then 2 else 0)))

/-- FRAME_START: the plane settings, the background and the CLUTs of the frame are latched, with the newest render of
each density unit shown (R313, R315, R317, R321). -/
def execFrameStart (o : Fin 3) (s : State) : Host.Outcome State Fault Refusal :=
  .next (if !(disp s o).running then s
    else
      setDisp s o (fun d => { d with
        frames := (d.frames + 1) % 2 ^ 64, aborted := false, scanX := 0, scanY := 0,
        blanked := decide (1 ≤ s.md.level), bg := par s 0x0B26 o,
        planes := [planeNow s (2 * o), planeNow s (2 * o + 1)], clut := d.clutNext }))

/-! ### Composition (R316, R318) -/

/-- Colour and alpha of a pixel, 10 bits each: (a, r, g, b). -/
abbrev Argb := Nat × Nat × Nat × Nat

/-- An ARGB2101010 word. -/
def argb10 (w : Nat) : Argb := (bits w 31 30 * 341, bits w 29 20, bits w 19 10, bits w 9 0)

/-- A raw pixel of a format (Table 10-2). -/
def expand (f w : Nat) (clut : Tab Nat) : Argb :=
  match f with
  | 0 =>
    let e := fun x => x * 4 + x / 64
    (e (bits w 31 24), e (bits w 23 16), e (bits w 15 8), e (bits w 7 0))
  | 1 =>
    let e5 := fun x => x * 32 + x
    let x6 := bits w 10 5
    (1023, e5 (bits w 15 11), x6 * 16 + x6 / 4, e5 (bits w 4 0))
  | 2 => argb10 w
  | _ => argb10 (tgetD clut (w % 256) 0)

/-- The source pixel of a plane at a place of its screen area: mirrored and rotated back (R316). -/
def planeSource (v : PlaneView) (u w : Nat) : Nat × Nat :=
  let m := match v.orient % 4 with
    | 0 => (u, w)
    | 1 => (w, v.height - 1 - u)
    | 2 => (v.width - 1 - u, v.height - 1 - w)
    | _ => (v.width - 1 - w, u)
  (if bit v.orient 2 then v.width - 1 - m.1 else m.1, if bit v.orient 3 then v.height - 1 - m.2 else m.2)

/-- A plane covers a screen pixel. -/
def planeCovers (v : PlaneView) (x y : Nat) : Bool :=
  let e := planeExtent v
  v.enable && decide (v.x ≤ x) && decide (x < v.x + e.1) && decide (v.y ≤ y) && decide (y < v.y + e.2)

/-- The raw word of a plane's pixel: from the latched render, from the words fetched, or from memory. -/
def planeWord (s : State) (v : PlaneView) (fetched : Option Nat) (poison : Bool) (x y : Nat) : Option Nat :=
  let p := planeSource v (x - v.x) (y - v.y)
  if v.source = 0 then
    if poison then some 0
    else match fetched with
      | some w => some w
      | none =>
        let n := formatBytes v.format
        some (leNat (memRead s.hbm.mem (v.addr + p.2 * v.stride + p.1 * n) n))
  else
    match v.latched.bind (fun b => nth (nth s.dus (v.source - 1) {}).buffers b none) with
    | none => none
    | some r => some (if poison then 0 else nth r.pixels (p.2 * r.cols + p.1) 0)

/-- One channel of a plane over what lies under it (R318). -/
def blend (colour a under : Nat) : Nat := (colour * a + under * (1023 - a) + 511) / 1023

/-- A plane over the pixel so far. -/
def blendPixel (under : Nat × Nat × Nat) (px : Argb) (alpha : Nat) : Nat × Nat × Nat :=
  let a := (px.1 * alpha + 511) / 1023
  (blend px.2.1 a under.1, blend px.2.2.1 a under.2.1, blend px.2.2.2 a under.2.2)

/-- Narrows a 10-bit channel to an output's bits per channel (R318). -/
def narrow (n v : Nat) : Nat :=
  match n with
  | 8 => Nat.min 255 ((v + 2) / 4)
  | 6 => Nat.min 63 ((v + 8) / 16)
  | _ => v

/-- The colour of an active pixel in 10-bit channels. `ws`: the words fetched for the covering memory planes, in plane
order. -/
def composePixel (s : State) (o x y : Nat) (ws : List Nat) (poison : Bool) : Nat × Nat × Nat :=
  let d := disp s o
  let start : Nat × Nat × Nat := (bits d.bg 29 20, bits d.bg 19 10, bits d.bg 9 0)
  ((d.planes.zipIdx).foldl (fun (acc : (Nat × Nat × Nat) × List Nat) e =>
    let v := e.1
    if planeCovers v x y then
      let rest := if v.source = 0 then acc.2.drop 1 else acc.2
      match planeWord s v (if v.source = 0 then acc.2.head? else none) poison x y with
      | none => (acc.1, rest)
      | some w => (blendPixel acc.1 (expand v.format w (nth d.clut e.2 [])) v.alpha, rest)
    else acc) (start, ws)).1

/-- The pixel value that leaves an output: channels packed at its width. -/
def packPixel (n : Nat) (c : Nat × Nat × Nat) : Nat :=
  narrow n c.1 * 2 ^ (2 * n) + narrow n c.2.1 * 2 ^ n + narrow n c.2.2

/-- Video leaves an output: PANEL always, a DisplayPort output over a trained link that is wide enough. -/
def videoOn (s : State) (o : Nat) : Bool := decide (o = 2) || ((disp s o).trained && !linkShort s o)

/-- The scan moves to the next active pixel. -/
def scanStep (s : State) (o : Nat) : State :=
  let w := dispWidth s o
  setDisp s o (fun d => if d.scanX + 1 < w then { d with scanX := d.scanX + 1 } else { d with scanX := 0, scanY := d.scanY + 1 })

/-- SCAN_INSTANT: the next active pixel of a frame leaves an output, black after an underrun and while blanked (R318 to
R320). -/
def execScanInstant (o : Fin 3) (fetched : Option (List W32)) (poison : Bool) (s : State) :
    Host.Outcome State Fault Refusal :=
  let d := disp s o
  .next (if !d.running || decide (dispHeight s o ≤ d.scanY) then s
    else
      let show_ := fun (s : State) (v : Nat) =>
        scanStep (if videoOn s o then emit s (.pixel o d.scanX d.scanY v) else s) o
      if d.blanked || d.aborted then show_ s 0
      else match fetched with
        | none =>
          if videoOn s o then
            let s := setDisp s o (fun d => { d with aborted := true, underruns := satU 32 (d.underruns + 1), underrunSeen := true })
            let s := raise s 0x0B03 o (d.scanY % 65536 + 65536 * ((disp s o).underruns % 65536))
            show_ s 0
          else scanStep s o
        | some ws =>
          let s := if poison then setDisp s o (fun d => { d with poisonSeen := true }) else s
          show_ s (packPixel (bpc s o) (composePixel s o d.scanX d.scanY (ws.map (·.toNat)) poison)))

/-! ### Commands (R321, R322) -/

def specDispClutLoad : CmdSpec :=
  { opcode := 0x0B55, inst := .below 6, modes := notSafe, len := loadLen,
    absent := fun s i _ => decide (i < 6) && !fitted s.variant 0x0D (i / 2),
    badParam := fun _ _ p _ => loadBad 0 256 256 p }

/-- The entries apply at the next frame start. -/
def runDispClutLoad (s : State) (_ : Packet) (i : Nat) (p : List Byte) (_ : Option Nat) : Ran :=
  (stOK, [], setDisp s (i / 2) (fun d => { d with
    clutNext := lmod d.clutNext (i % 2) (fun t => tputAll t (loadEntries p) (fun _ => 0)) }))

def execDispClutLoad (p : Packet) (s : State) : Host.Outcome State Fault Refusal :=
  .next (runPacket specDispClutLoad runDispClutLoad p s)

def specDispEdidRead : CmdSpec :=
  { opcode := 0x0B56, inst := .below 2, modes := [.idle, .analyse, .record, .service],
    len := fun p => decide (p.length = 8),
    absent := fun s o _ => decide (o < 3) && !fitted s.variant 0x0D o,
    badState := fun s o _ => !(disp s o).hpd,
    badParam := fun _ _ p _ => !zeroBytes p 1 7 }

/-- The block that the sink's EDID gives for the block number asked for. -/
def runDispEdidRead (edid : List Byte) (s : State) (_ : Packet) (_ : Nat) (_ : List Byte) (_ : Option Nat) : Ran :=
  (stOK, padTo 128 edid, s)

def execDispEdidRead (p : Packet) (edid : List Byte) (s : State) : Host.Outcome State Fault Refusal :=
  .next (runPacket specDispEdidRead (runDispEdidRead edid) p s)

end Sys2Proof.Machine
end

