-- ==== Sys2Proof/Machine/Memory.lean ====
section
/-! DEFINITION. The memories that engines and ports share: HBM with its poisoned lines, cluster memory and the lines of
the cluster caches (R328, R363, R370 to R372). -/
namespace Sys2Proof.Machine

/-! ### HBM -/

/-- Some line of a range is poisoned. -/
def hbmPoisoned (s : State) (a n : Nat) : Bool :=
  s.hbm.poisoned.any (fun l => decide (64 * l < a + n) && decide (a < 64 * l + 64))

/-- A line loses its poison once all its 64 bytes have been overwritten (R372). -/
def patchByte (h : HbmUnit) (a : Nat) : HbmUnit :=
  let l := a / 64
  if h.poisoned.contains l then
    let m := tgetD h.patched l 0 ||| (1 <<< (a % 64))
    if m % 2 ^ 64 = 2 ^ 64 - 1 then { h with poisoned := h.poisoned.filter (· ≠ l), patched := tdel h.patched l }
    else { h with patched := tput h.patched l m }
  else h

/-- A line is poisoned. -/
def poisonLine (s : State) (l : Nat) : State :=
  { s with hbm := { s.hbm with
      poisoned := if s.hbm.poisoned.contains l then s.hbm.poisoned else l :: s.hbm.poisoned
      patched := tdel s.hbm.patched l } }

/-- Writes bytes of HBM. -/
def hbmWrite (s : State) (a : Nat) (bs : List Byte) : State :=
  let h := (List.range bs.length).foldl (fun h i => patchByte h (a + i)) s.hbm
  { s with hbm := { h with mem := memWrite h.mem a bs } }

def hbmRead (s : State) (a n : Nat) : List Byte := memRead s.hbm.mem a n

/-! ### Clusters -/

def cluster (s : State) (c : Nat) : Cluster := tgetD s.clusters c {}

def setCluster (s : State) (c : Nat) (f : Cluster → Cluster) : State := { s with clusters := tmod s.clusters c {} f }

/-- The state of a line in a cluster's cache: 0 Invalid, 1 Shared, 2 Exclusive, 3 Modified. -/
def lineState (s : State) (c l : Nat) : Nat := ((cluster s c).cache.find? (fun x => decide (x.1 = l))).elim 0 (·.2)

/-- The clusters that hold a line. -/
def holders (s : State) (l : Nat) : List Nat := (List.range 16).filter (fun c => decide (lineState s c l ≠ 0))

/-- Puts a line in a cache of 1,024 sets of 8 ways; the line longest in a full set is evicted. -/
def putLine (s : State) (c l st : Nat) : State :=
  setCluster s c (fun k =>
    let rest := k.cache.filter (fun x => decide (x.1 ≠ l))
    let set := rest.filter (fun x => decide (x.1 % 1024 = l % 1024))
    let rest := match set with
      | [] => rest
      | v :: _ => if 8 ≤ set.length then rest.filter (fun x => decide (x.1 ≠ v.1)) else rest
    { k with cache := rest ++ [(l, st)] })

/-- Drops a line from a cache. -/
def dropLine (s : State) (c l : Nat) : State :=
  setCluster s c (fun k => { k with cache := k.cache.filter (fun x => decide (x.1 ≠ l)) })

/-- A cluster reads a line: a Modified copy elsewhere is written back, and every copy becomes Shared. -/
def lineRead (s : State) (c l : Nat) : State :=
  if lineState s c l ≠ 0 then s
  else
    let hs := holders s l
    if hs.isEmpty then putLine s c l 2
    else putLine (hs.foldl (fun s h => putLine s h l 1) s) c l 1

/-- A cluster writes a line: every other copy is invalidated. -/
def lineWrite (s : State) (c l : Nat) : State :=
  let s := ((holders s l).filter (fun h => decide (h ≠ c))).foldl (fun s h => dropLine s h l) s
  putLine s c l 3

/-- A port writes a line: every cached copy is invalidated (R371). -/
def portWrites (s : State) (l : Nat) : State := (holders s l).foldl (fun s h => dropLine s h l) s

/-- A port reads a line: a Modified copy is written back first (R371). -/
def portReads (s : State) (l : Nat) : State :=
  (holders s l).foldl (fun s h => if lineState s h l = 3 then putLine s h l 1 else s) s

/-! ### The engine address map (Table 11-4) -/

/-- The region of an address: 0 local, 1 cluster shared, 2 cluster I/O, 3 HBM. -/
def regionAt (s : State) (a : Nat) : Option Nat :=
  if a < 0x20000 then some 0
  else if 0x1000000 ≤ a ∧ a < 0x1400000 then some 1
  else if 0x2000000 ≤ a ∧ a < 0x2010000 then some 2
  else if 0x2000000000 ≤ a ∧ a < 0x2000000000 + hbmSize s.variant then some 3
  else none

/-- An access of n bytes lies in one region. -/
def spanIn (s : State) (a n : Nat) : Bool :=
  match regionAt s a with
  | none => false
  | some r => decide (regionAt s (a + n - 1) = some r)

/-- The cluster of an engine. -/
def clusterOf (e : Nat) : Nat := e / 16

/-- The byte that memory holds at an address of an engine, its store buffer left out. -/
def byteAt (s : State) (e a : Nat) : Byte :=
  match regionAt s a with
  | some 0 => memGet (eng s e).loc a
  | some 1 => memGet (cluster s (clusterOf e)).shared (a - 0x1000000)
  | some 3 => memGet s.hbm.mem (a - 0x2000000000)
  | _ => 0

/-- Writes bytes at an address of an engine. -/
def writeAt (s : State) (e a : Nat) (bs : List Byte) : State :=
  match regionAt s a with
  | some 0 => setEng s e (fun x => { x with loc := memWrite x.loc a bs })
  | some 1 => setCluster s (clusterOf e) (fun c => { c with shared := memWrite c.shared (a - 0x1000000) bs })
  | some 3 =>
    let p := a - 0x2000000000
    let s := lineWrite s (clusterOf e) (p / 64)
    let s := if (p + bs.length - 1) / 64 = p / 64 then s else lineWrite s (clusterOf e) ((p + bs.length - 1) / 64)
    hbmWrite s p bs
  | _ => s

/-- A commutative operation on a word (R335): the new word, and whether it clamped. -/
def commute (op old d : Nat) : Nat × Bool :=
  let a := sgn 32 old
  let b := sgn 32 d
  match op with
  | 0x10 => (uns 32 (satS 32 (a + b)), satHit 32 (a + b))
  | 0x11 => (if a < b then d else old, false)
  | 0x12 => (if b < a then d else old, false)
  | _ => (old ||| d, false)

/-- Memory as an engine sees it through its store buffer, oldest entry first (R336). -/
def bufView (m : Nat → Byte) : List StoreEnt → Nat → Byte
  | [], a => m a
  | x :: rest, a =>
    let new := if x.op = 0 then x.bytes
      else leBytes 4 (commute x.op (leNat ((List.range 4).map (fun i => m (x.addr + i)))) (leNat x.bytes)).1
    bufView (fun a => if x.addr ≤ a ∧ a < x.addr + new.length then nth new (a - x.addr) 0 else m a) rest a

/-- n bytes as an engine reads them. -/
def engRead (s : State) (e a n : Nat) : List Byte :=
  (List.range n).map (fun i => bufView (byteAt s e) (eng s e).buf (a + i))

/-- An engine's read of n bytes meets poison. -/
def engPoison (s : State) (a n : Nat) : Bool := decide (regionAt s a = some 3) && hbmPoisoned s (a - 0x2000000000) n

end Sys2Proof.Machine
end

