-- ==== Sys2Proof/Machine/Operands.lean ====
section
/-! DEFINITION. The fields of a bundle (Tables 11-5, 11-6), register operands, effective addresses and circular
addressing (R331, R335, R346). -/
namespace Sys2Proof.Machine

/-! ### Fields -/

def bFmt (w : Nat) : Nat := bits w 63 62

def arOp (w : Nat) : Nat := bits w 61 57
def arA (w : Nat) : Nat := bits w 56 52
def arB (w : Nat) : Nat := bits w 51 47
def arC (w : Nat) : Nat := bits w 46 44

def lsOp (w : Nat) : Nat := bits w 43 39
def lsD (w : Nat) : Nat := bits w 38 34
def lsA (w : Nat) : Nat := bits w 33 31
def lsM (w : Nat) : Nat := bits w 30 28
def lsAm (w : Nat) : Nat := bits w 27 26

def adOp (w : Nat) : Nat := bits w 25 24
def adA (w : Nat) : Nat := bits w 23 21
def adM (w : Nat) : Nat := bits w 20 18

def ctOp (w : Nat) : Nat := bits w 17 13
def ctX (w : Nat) : Nat := bits w 12 0

def lgOp (w : Nat) : Nat := bits w 61 56
def lgR (w : Nat) : Nat := bits w 55 51
def lgZ (w : Nat) : Nat := bits w 50 48
def lgImm (w : Nat) : Nat := bits w 47 0

/-- The signed 8-bit value of {b, c} (ADDI, MOVI). -/
def imm8 (w : Nat) : Int := sgn 8 (arB w * 8 + arC w)

/-- The D register, or pair, that x[12:8] of the control slot names, and the low register number. -/
def ctD (w : Nat) : Nat := ctX w / 256
def ctLow (w n : Nat) : Nat := ctX w % 2 ^ n

/-- n and k of a REPEAT. -/
def repN (w : Nat) : Nat := bits (lgImm w) 31 16 + 1
def repK (w : Nat) : Nat := bits (lgImm w) 5 0 + 1

/-! ### Registers -/

def dReg (x : Engine) (i : Nat) : Nat := nth x.d i 0
def aReg (x : Engine) (i : Nat) : Nat := nth x.a i 0
def mReg (x : Engine) (i : Nat) : Int := sgn 32 (nth x.m i 0)

/-- A pair as a 64-bit number, low word in the even register. -/
def dPair (x : Engine) (i : Nat) : Nat := dReg x i + 2 ^ 32 * dReg x (i + 1)

/-- Writes D registers in order. -/
def putRegs (d : List Nat) (l : List (Nat × Nat)) : List Nat := l.foldl (fun d r => lmod d r.1 (fun _ => r.2 % 2 ^ 32)) d

def putD (x : Engine) (l : List (Nat × Nat)) : Engine := { x with d := putRegs x.d l }

def putA (x : Engine) (i v : Nat) : Engine := { x with a := lmod x.a i (fun _ => v % 2 ^ 38) }

/-! ### Addresses -/

/-- Aa + Mm modulo 2^38 (R337). -/
def addrAdd (a : Nat) (m : Int) : Nat := uns 38 ((a : Int) + m)

/-- A circular modification (R346). -/
def addrCirc (x : Engine) (a m : Nat) : Nat :=
  let b : Int := ((nth x.b a 0 : Nat) : Int)
  let len : Int := ((nth x.l a 0 : Nat) : Int)
  uns 38 (b + ((aReg x a : Int) - b + mReg x m).emod len)

/-- R346: La is 0, or |Mm| is at least La. -/
def circBad (x : Engine) (a m : Nat) : Bool :=
  decide (nth x.l a 0 = 0) || decide (nth x.l a 0 ≤ (mReg x m).natAbs)

/-- Circular addressing is permitted in BOOT, SERVICE and SAFE. -/
def circMode (m : Mode) : Bool := m = .boot || m = .service || m = .safe

/-- The effective address of the load/store slot (R335). -/
def effAddr (x : Engine) (w : Nat) : Nat :=
  if lsAm w = 3 then addrAdd (aReg x (lsA w)) (mReg x (lsM w)) else aReg x (lsA w)

/-- Bytes of an access by its operation (Table 11-8). -/
def lsSize : Nat → Nat
  | 0x01 => 4 | 0x02 => 2 | 0x03 => 2 | 0x04 => 3 | 0x05 => 8 | 0x06 => 4 | 0x07 => 6
  | 0x08 => 4 | 0x09 => 2 | 0x0A => 3 | 0x0B => 8 | 0x0C => 4 | 0x0E => 1
  | 0x10 => 4 | 0x11 => 4 | 0x12 => 4 | 0x13 => 4 | _ => 0

def lsIsLoad (op : Nat) : Bool := decide (1 ≤ op) && decide (op ≤ 7)
def lsIsStore (op : Nat) : Bool := decide (8 ≤ op) && decide (op ≤ 0x0C)
def lsIsComm (op : Nat) : Bool := decide (0x10 ≤ op) && decide (op ≤ 0x13)
def lsIsPair (op : Nat) : Bool := op = 0x05 || op = 0x06 || op = 0x07 || op = 0x0B || op = 0x0C

/-- An access that must be aligned to its size (R329). -/
def lsAligned (op : Nat) : Bool :=
  !(op = 0x04 || op = 0x07 || op = 0x0A || op = 0x0E)

/-- The registers that a load writes, from its bytes (Table 11-8), and whether it clamped. -/
def loadValue (op d : Nat) (bs : List Byte) : List (Nat × Nat) × Bool :=
  let v := leNat bs
  match op with
  | 0x02 => ([(d, uns 32 (sgn 16 v))], false)
  | 0x03 => ([(d, v)], false)
  | 0x04 => ([(d, uns 32 (sgn 24 v))], false)
  | 0x05 => ([(d, v % 2 ^ 32), (d + 1, v / 2 ^ 32)], false)
  | 0x06 => ([(d, uns 32 (4 * sgn 16 (v % 2 ^ 16))), (d + 1, uns 32 (4 * sgn 16 (v / 2 ^ 16)))], false)
  | 0x07 =>
    let i := satTo 18 (rndUp 6 (sgn 24 (v % 2 ^ 24)))
    let q := satTo 18 (rndUp 6 (sgn 24 (v / 2 ^ 24)))
    ([(d, i.1), (d + 1, q.1)], i.2 || q.2)
  | _ => ([(d, v)], false)

/-- The bytes that a store writes, and whether it clamped. -/
def storeValue (x : Engine) (op d : Nat) : List Byte × Bool :=
  match op with
  | 0x09 => (leBytes 2 (dReg x d), false)
  | 0x0A => (leBytes 3 (dReg x d), false)
  | 0x0B => (leBytes 8 (dPair x d), false)
  | 0x0C =>
    let i := rndUp 2 (sgn 32 (dReg x d))
    let q := rndUp 2 (sgn 32 (dReg x (d + 1)))
    (leInt 2 (satS 16 i) ++ leInt 2 (satS 16 q), satHit 16 i || satHit 16 q)
  | _ => (leBytes 4 (dReg x d), false)

/-- n of a GATHER (R347). -/
def gatherN (w : Nat) : Nat := 2 ^ (lsAm w + 1)

/-- ST (Table 11-2): the REPEAT fields and the pending branch are those at EPC while an exception is in hand, and the
live ones otherwise. -/
def stWord (x : Engine) : Nat :=
  let saved := x.inexc || x.st = .faulted
  let r := if saved then x.svRep else x.rep
  let b := if saved then x.svBranch else x.branch
  let (rc, pos, k1, on) := match r with
    | some r => (r.rc, r.pos, r.k1, 1)
    | none => (0, 0, 0, 0)
  let (tgt, left) := match b with
    | some (.to t, l) => (t, l)
    | some (_, l) => (x.epc, l)
    | none => (0, 0)
  x.gmask * 2 ^ 48 + rc * 2 ^ 32 + pos * 2 ^ 26 + k1 * 2 ^ 20 + on * 2 ^ 19 + tgt * 2 ^ 7 + left * 2 ^ 5 +
    16 * b2n x.insig + 8 * b2n x.inexc + 4 * b2n x.sat + 2 * b2n x.n + b2n x.z

end Sys2Proof.Machine
end

