-- ==== Sys2Proof/Machine/Bundles.lean ====
section
/-! DEFINITION. A bundle: what makes it fault, what it does, exceptions and signals (R330 to R362). -/
namespace Sys2Proof.Machine

/-- A fault: cause (Table 11-12), slot, element and address (Table 11-15). -/
abbrev EngFault := Nat × Nat × Nat × Nat

def fIll (slot : Nat) : EngFault := (1, slot, 255, 0)

/-! ### Signals (R354, R355) -/

/-- The lowest enabled pending line. -/
def lineDue (x : Engine) : Option Nat :=
  if x.sen then (List.range 8).find? (fun i => bit x.sigp i && bit x.smask i) else none

/-- An open bundle boundary (R355). -/
def openBoundary (x : Engine) : Bool :=
  x.loads.isEmpty && x.chain.isEmpty && x.branch.isNone && x.rep.isNone && !x.insig && !x.inexc

/-! ### Registers written (R331) -/

/-- The D registers that the arithmetic slot writes. -/
def arWrites (w : Nat) : List Nat :=
  let op := arOp w
  if op = 0 || op = 1 || op = 2 || op = 3 || op = 6 || op = 7 || op = 0x15 || op = 0x16 || 0x1E ≤ op then [] else [arA w]

/-- The D registers that the load/store slot writes. -/
def lsWrites (w : Nat) : List Nat :=
  let op := lsOp w
  if op = 0x0D then (List.range (gatherN w)).map (lsD w + ·)
  else if lsIsLoad op then (if lsIsPair op then [lsD w, lsD w + 1] else [lsD w])
  else []

/-- The D registers that the control slot writes. -/
def ctWrites (w : Nat) : List Nat :=
  match ctOp w with
  | 0x07 => [31]
  | 0x10 => [ctD w]
  | 0x13 => [ctD w, ctD w + 1]
  | _ => []

/-- The A registers that each slot modifies: post-modify, the address slot, MOVA. -/
def aWrites (w : Nat) : List Nat :=
  (if (lsAm w = 1 || lsAm w = 2) && decide (lsOp w ≠ 0) && decide (lsOp w ≠ 0x0D) then [lsA w] else []) ++
  (if adOp w = 0 then [] else [adA w]) ++ (if ctOp w = 0x12 then [ctLow w 3] else [])

/-- Some register stands in two of the lists. -/
def meet (a b : List Nat) : Bool := a.any b.contains

/-! ### Faults found at issue: ILLEGAL, ADDRESS_MODE, HOLDOFF -/

/-- A branch-group operation (Table 11-9). -/
def isBranch (w : Nat) : Bool := (decide (1 ≤ ctOp w) && decide (ctOp w ≤ 0x0B)) || decide (ctOp w = 0x0D)

/-- A special register that GETS, or PUTS, may not name (R327). -/
def specialBad (n : Nat) (write : Bool) : Bool := decide (10 < n) || (write && decide (6 ≤ n))

/-- ILLEGAL of the arithmetic slot. -/
def arIllegal (w : Nat) : Bool :=
  match arOp w with
  | 0x01 => decide (arA w % 2 = 1) || decide (arB w % 2 = 1) || bit (arC w) 2
  | 0x02 => decide (arA w % 2 = 1) || decide (arB w % 2 = 1)
  | 0x04 => bit (arC w) 2
  | 0x06 => decide (16 < arB w)
  | 0x07 => decide (arA w ≠ 0) || decide (16 ≤ arB w) || decide (arC w ≠ 0)
  | 0x1E => true
  | 0x1F => true
  | _ => false

/-- ILLEGAL of the load/store slot. -/
def lsIllegal (w : Nat) : Bool :=
  let op := lsOp w
  decide (op = 0x0F) || decide (0x14 ≤ op) || (lsIsPair op && decide (lsD w % 2 = 1)) ||
  (decide (op = 0x0D) && decide (32 < lsD w + gatherN w))

/-- ILLEGAL of the control slot. -/
def ctIllegal (x : Engine) (w : Nat) : Bool :=
  match ctOp w with
  | 0x0D => !x.sen || decide (x.smask = 0)
  | 0x0E => decide (ctD w % 2 = 1)
  | 0x0F => decide (ctD w % 2 = 1)
  | 0x10 => specialBad (ctLow w 4) false
  | 0x11 => specialBad (ctLow w 4) true
  | 0x12 => decide (ctD w % 2 = 1)
  | 0x13 => decide (ctD w % 2 = 1)
  | op => decide (0x17 ≤ op)

/-- ILLEGAL of a LONG bundle. -/
def lgIllegal (x : Engine) (w : Nat) : Bool :=
  let op := lgOp w
  decide (op = 0) || decide (7 < op) || decide (lgZ w ≠ 0) ||
  (decide (3 ≤ op) && decide (op ≤ 6) && decide (8 ≤ lgR w)) ||
  (decide (op = 1) &&
    (decide (bits (lgImm w) 47 32 ≠ 0) || decide (bits (lgImm w) 15 6 ≠ 0) ||
     x.branch.isSome || x.rep.isSome || x.inexc || decide (4095 < x.pc + repK w)))

/-- The slots that a NORMAL bundle makes ILLEGAL, with those that share a register (R331, R342, R344). -/
def illegals (x : Engine) (w : Nat) : List EngFault :=
  match bFmt w with
  | 0 =>
    (if arIllegal w then [fIll 0] else []) ++
    (if lsIllegal w then [fIll 1] else []) ++
    (if ctIllegal x w || (isBranch w && (x.branch.isSome || x.rep.isSome)) then [fIll 3] else []) ++
    (if meet (arWrites w) (lsWrites w) || meet (arWrites w) (ctWrites w) then [fIll 0] else []) ++
    (if meet (lsWrites w) (ctWrites w) then [fIll 1] else []) ++
    (if (aWrites w).eraseDups.length < (aWrites w).length then
      [fIll (if (lsAm w = 1 || lsAm w = 2) && decide (lsOp w ≠ 0) && decide (lsOp w ≠ 0x0D) then 1 else 2)] else [])
  | 1 => if lgIllegal x w then [fIll 3] else []
  | _ => [fIll 3]

/-- ADDRESS_MODE (R346). -/
def modeFaults (s : State) (x : Engine) (w : Nat) : List EngFault :=
  let ls := decide (lsAm w = 2) && decide (lsOp w ≠ 0) && decide (lsOp w ≠ 0x0D)
  let ad := decide (adOp w = 3)
  (if ls && (!circMode s.md.mode || circBad x (lsA w) (lsM w)) then [(4, 1, 255, 0)] else []) ++
  (if ad && (!circMode s.md.mode || circBad x (adA w) (adM w)) then [(4, 2, 255, 0)] else [])

/-- Bundles since the last open boundary, before this one. -/
def holdNow (x : Engine) : Nat := if openBoundary x then 0 else x.hold

/-- HOLDOFF (R356). -/
def holdFaults (x : Engine) (w : Nat) : List EngFault :=
  let c := holdNow x
  if bFmt w = 1 && decide (lgOp w = 1) then
    (if x.prog.hd < c + 1 + repN w * repK w + 3 then [(7, 255, 255, 0)] else [])
  else if x.prog.hd < c + 1 then [(7, 255, 255, 0)] else []

/-! ### Faults of an access (R328, R329, R347, R364, R365, R373, R388) -/

/-- The region of the image that permits an access: 0 load, 1 store, 2 commutative, 3 prefetch (Table 12-3). -/
def rightOk (r kind : Nat) : Bool :=
  match r with
  | 0 => kind = 0 || kind = 3
  | 2 => kind = 2
  | _ => true

/-- Some region of the image permits an access to n bytes. -/
def regionOk (x : Engine) (a n kind : Nat) : Bool :=
  x.prog.regions.any (fun r => decide (r.base ≤ a) && decide (a + n ≤ r.base + r.len) && rightOk r.right kind)

/-- The register of the cluster I/O map at an offset: name (0 MB.DATA, 1 MB.COUNT, 2 IP.DATA, 3 IP.REMAIN, 4 IP.AVAIL,
5 OP.DATA, 6 OP.LENGTH, 7 OP.END, 8 SIGSEND) and index (Table 12-1). -/
def ioReg (off : Nat) : Option (Nat × Nat) :=
  if off < 0x1000 then
    (if off % 256 = 0 then some (0, off / 256) else if off % 256 = 8 then some (1, off / 256) else none)
  else if off < 0x1400 then
    (let p := (off - 0x1000) / 256
     match off % 256 with
     | 0 => some (2, p) | 8 => some (3, p) | 0x0C => some (4, p) | _ => none)
  else match off with
    | 0x1800 => some (5, 0) | 0x1808 => some (6, 0) | 0x1810 => some (7, 0) | 0x2000 => some (8, 0) | _ => none

/-- Whether Table 12-1 allows an access of a size and direction to a register. -/
def ioAllowed (name n : Nat) (store : Bool) : Bool :=
  match name with
  | 0 => n = 8
  | 2 => !store && (n = 4 || n = 8)
  | 5 => store && (n = 4 || n = 8)
  | 7 => store && n = 8
  | 8 => store && n = 4
  | _ => !store && n = 4

/-- Bytes that the open product will hold once the buffer has drained. -/
def productBytes (x : Engine) : Nat :=
  x.buf.foldl (fun a e =>
    if e.addr = 0x2001800 then a + e.bytes.length else if e.addr = 0x2001810 then 0 else a) x.body.length

/-- ACCESS of a cluster I/O access (R365, R369, R388). -/
def ioDenied (x : Engine) (name i n : Nat) (store : Bool) : Bool :=
  match name with
  | 0 => !x.prog.mailboxes.contains (i, if store then 1 else 0)
  | 1 => x.prog.determinate || !(x.prog.mailboxes.contains (i, 0) || x.prog.mailboxes.contains (i, 1))
  | 4 => x.prog.determinate
  | 5 => decide (65536 < productBytes x + n)
  | _ => false

/-- The fault of one access to n bytes: kind as in `regionOk`. -/
def accessFault (s : State) (x : Engine) (a n kind : Nat) (aligned : Bool) : Option Nat :=
  if !spanIn s a n then some 2
  else match regionAt s a with
    | some 2 =>
      match ioReg (a - 0x2000000) with
      | none => some 2
      | some (name, i) =>
        if kind = 2 || kind = 3 || !ioAllowed name n (decide (kind = 1)) then some 2
        else if aligned && decide (a % n ≠ 0) then some 3
        else if ioDenied x name i n (decide (kind = 1)) then some 6 else none
    | some 0 => if aligned && decide (a % n ≠ 0) then some 3 else none
    | _ =>
      if aligned && decide (a % n ≠ 0) then some 3
      else if regionOk x a n kind then none else some 6

/-- The kind of an access by its operation. -/
def lsKind (op : Nat) : Nat := if lsIsStore op then 1 else if lsIsComm op then 2 else if op = 0x0E then 3 else 0

/-- The index table of a GATHER: its address, and element i's address. -/
def gatherAddr (s : State) (e w i : Nat) : Nat :=
  let x := eng s e
  addrAdd (aReg x (lsA w)) (4 * leNat (engRead s e (aReg x (lsM w) + 2 * i) 2))

/-- Elements that a GATHER still has to read (R347). -/
def gatherLeft (x : Engine) (w : Nat) : List Nat := (List.range (gatherN w)).filter (fun i => !bit x.gmask i)

/-- The faults of a GATHER found before any element is read (R347, R349): ADDRESS_RANGE for its table, ALIGN for Aa. -/
def gatherFaults (s : State) (x : Engine) (w : Nat) : List EngFault :=
  let t := aReg x (lsM w)
  let n := 2 * gatherN w
  (if t % 2 ≠ 0 || !spanIn s t n || decide (regionAt s t ≠ some 0) then [(2, 1, 255, t)] else []) ++
  (if aReg x (lsA w) % 4 ≠ 0 then [(3, 1, 255, aReg x (lsA w))] else [])

/-- The first element that faults, by address and rights or by poison. -/
def elementFault (s : State) (e w i : Nat) : Option EngFault :=
  let a := gatherAddr s e w i
  match accessFault s (eng s e) a 4 0 true with
  | some c => some (c, 1, i, a)
  | none => if engPoison s a 4 then some (5, 1, i, a) else none

/-- The faults of the load/store slot. -/
def lsFaults (s : State) (e w : Nat) : List EngFault :=
  let x := eng s e
  let op := lsOp w
  if op = 0 || lsIllegal w || bFmt w ≠ 0 then []
  else if op = 0x0D then gatherFaults s x w
  else
    let a := effAddr x w
    match accessFault s x a (lsSize op) (lsKind op) (lsAligned op) with
    | some c => [(c, 1, 255, a)]
    | none => if lsIsLoad op && engPoison s a (lsSize op) then [(5, 1, 255, a)] else []

/-- The faults of the control slot at execution: BRK, and CYCL or CYCH of a determinate program (R388). -/
def ctFaults (x : Engine) (w : Nat) : List EngFault :=
  if bFmt w ≠ 0 then [] else
  (if ctOp w = 0x16 then [(8, 3, 255, 0)] else []) ++
  (if ctOp w = 0x10 && x.prog.determinate && (ctLow w 4 = 7 || ctLow w 4 = 8) then [(6, 3, 255, 0)] else [])

/-- The fault reported of a bundle: the lowest cause, then the first slot (R349). -/
def worst (l : List EngFault) : Option EngFault :=
  l.foldl (fun acc f => match acc with
    | none => some f
    | some g => if f.1 < g.1 || (f.1 = g.1 && decide (f.2.1 < g.2.1)) then some f else some g) none

/-- Every fault of the bundle at PC. -/
def bundleFaults (s : State) (e w : Nat) : List EngFault :=
  let x := eng s e
  illegals x w ++ (if bFmt w = 0 then modeFaults s x w else []) ++ holdFaults x w ++ lsFaults s e w ++ ctFaults x w

/-! ### Exceptions (R350, R351) -/

/-- The fault record of an engine (Table 11-15). -/
def faultBytes (s : State) (e : Nat) : List Byte :=
  let f := (eng s e).fault
  let b := leBytes 2 e ++ leBytes 1 f.cause ++ leBytes 1 f.inner ++ leBytes 1 f.slot ++ leBytes 1 f.element ++
    leBytes 2 f.bundle ++ leBytes 8 f.address ++ leBytes 8 f.st ++ leBytes 8 f.word ++ leBytes 4 f.lc ++
    leBytes 1 f.loads ++ leBytes 1 f.chain ++ zeros 22
  b ++ leBytes 4 (crc32c b)

/-- Takes the exception of the bundle at PC. -/
def takeException (s : State) (e w : Nat) (f : EngFault) : State :=
  let x := eng s e
  let nested := x.inexc || x.insig
  let inner := if !nested then 0 else if x.inexc then x.fault.cause else f.1
  let cause := if nested then 9 else f.1
  let frec : FaultRec := 
    { cause, inner, slot := f.2.1, element := f.2.2.1, bundle := x.pc, address := f.2.2.2, st := 0, word := w, lc := x.lc, loads := x.loads.length, chain := x.chain.length }
  let x := { x with faults := satU 32 (x.faults + 1), nested, stall := .none }
  if nested then
    let x := { x with st := .faulted }
    let s := setEng s e (fun _ => { x with fault := { frec with st := stWord x } })
    raise s 0x0C01 e (cause + 256 * inner + 65536 * x.pc)
  else
    let x := { x with epc := x.pc, svRep := x.rep, svBranch := x.branch, svLoads := x.loads, svChain := x.chain,
                      rep := none, branch := none, loads := [], chain := [] }
    if x.xen then
      let y := { x with inexc := true, pc := 8 }
      setEng s e (fun _ => { y with fault := { frec with st := stWord y } })
    else
      let y := { x with st := .faulted }
      let s := setEng s e (fun _ => { y with fault := { frec with st := stWord y } })
      raise s 0x0C01 e (cause + 65536 * x.pc)

/-! ### Effects -/

/-- What the arithmetic slot does: D writes, chain terms, a clamp, and Z and N. -/
def arDo (x : Engine) (w : Nat) : List (Nat × Nat) × List AccTerm × Bool × Option (Bool × Bool) :=
  let a := arA w
  let b := arB w
  let c := arC w
  let da := dReg x a
  let db := dReg x b
  let sa := sgn 32 da
  let sb := sgn 32 db
  let wr := fun (v : Nat) => ([(a, v)], ([] : List AccTerm), false, (none : Option (Bool × Bool)))
  let wrs := fun (v : Nat × Bool) => ([(a, v.1)], ([] : List AccTerm), v.2, (none : Option (Bool × Bool)))
  let chain := fun (l : List AccTerm) => (([] : List (Nat × Nat)), l, false, (none : Option (Bool × Bool)))
  match arOp w with
  | 0x01 =>
    let xr := mul18 da
    let xi := mul18 (dReg x (a + 1))
    let y0 := mul18 db
    let y1 := mul18 (dReg x (b + 1))
    let sg := fun (v : Int) => if bit c 0 then -v else v
    chain [⟨0, bit c 1, sg (xr * y0)⟩, ⟨1, bit c 1, sg (xi * y0)⟩, ⟨2, bit c 1, sg (xr * y1)⟩, ⟨3, bit c 1, sg (xi * y1)⟩]
  | 0x02 =>
    let xr := mul18 da
    let xi := mul18 (dReg x (a + 1))
    let yr := mul18 db
    let yi := if bit c 0 then -(mul18 (dReg x (b + 1))) else mul18 (dReg x (b + 1))
    let k := if bit c 2 then 2 else 0
    chain [⟨k, bit c 1, xr * yr - xi * yi⟩, ⟨k + 1, bit c 1, xr * yi + xi * yr⟩]
  | 0x03 => chain [⟨c % 4, false, (if bit c 2 then -(mul18 da * mul18 db) else mul18 da * mul18 db)⟩]
  | 0x04 => wrs (satTo 32 (rndUp b (nth x.acc (c % 4) 0)))
  | 0x05 => wrs (satTo 18 (rndUp b (nth x.acc (c % 4) 0)))
  | 0x06 => chain [⟨c % 4, true, sa * (2 ^ b : Nat)⟩]
  | 0x07 => chain ((setBits 4 b).map (fun m => ⟨m, true, 0⟩))
  | 0x08 => wr ((da + db) % 2 ^ 32)
  | 0x09 => wrs (satTo 32 (sa + sb))
  | 0x0A => wr (uns 32 (sa - sb))
  | 0x0B => wrs (satTo 32 (sa - sb))
  | 0x0C => wr (da &&& db)
  | 0x0D => wr (da ||| db)
  | 0x0E => wr (da ^^^ db)
  | 0x0F => wr db
  | 0x10 => wr ((da <<< b) % 2 ^ 32)
  | 0x11 => wr (da >>> b)
  | 0x12 => wr (uns 32 (sa / (2 ^ b : Nat)))
  | 0x13 => wr (rndi b da)
  | 0x14 => wrs (satTo 18 (rndUp b sa))
  | 0x15 => ([], [], false, some (cmpFlags da db))
  | 0x16 => ([], [], false, some (cmpuFlags da db))
  | 0x17 => wr (if sa ≤ sb then da else db)
  | 0x18 => wr (if sa ≤ sb then db else da)
  | 0x19 => wrs (satTo 32 (sb.natAbs : Int))
  | 0x1A => wrs (satTo 32 (-sb))
  | 0x1B => wr ((db % 65536) * 65536 + da % 65536)
  | 0x1C => wr (uns 32 (sa + imm8 w))
  | 0x1D => wr (uns 32 (imm8 w))
  | _ => ([], [], false, none)

/-- Lands chain terms in the accumulators as ACCRD sees them (R333, R340). -/
def landTerm (x : Engine) (t : AccTerm) : Engine :=
  if t.replace then { x with acc := lmod x.acc t.acc (fun _ => satS 48 t.term), sat := x.sat || satHit 48 t.term }
  else
    let r := accSum (nth x.acc t.acc 0) t.term
    { x with acc := lmod x.acc t.acc (fun _ => r.1), sat := x.sat || r.2 }

/-- One more bundle has issued: results that are due land (R340, R341). -/
def landDue (x : Engine) : Engine :=
  let x := (x.loads.filter (fun (l : LoadRes) => l.left ≤ 1)).foldl (fun (x : Engine) (l : LoadRes) => putD x l.dst) x
  let x := { x with loads := (x.loads.filter (fun (l : LoadRes) => decide (1 < l.left))).map (fun (l : LoadRes) => { l with left := l.left - 1 }) }
  let x := (x.chain.filter (fun (c : ChainRes) => c.left ≤ 1)).foldl (fun (x : Engine) (c : ChainRes) => c.terms.foldl landTerm x) x
  { x with chain := (x.chain.filter (fun (c : ChainRes) => decide (1 < c.left))).map (fun (c : ChainRes) => { c with left := c.left - 1 }) }

/-- Every outstanding result lands (R359, R362, R380). -/
def landAll (x : Engine) : Engine :=
  let x := x.loads.foldl (fun x l => putD x l.dst) x
  let x := x.chain.foldl (fun x c => c.terms.foldl landTerm x) x
  { x with loads := [], chain := [] }

/-- The value of a special register (Table 11-3); CYCL and CYCH come from `cyc`. -/
def getSpecial (x : Engine) (e n cyc : Nat) : Nat :=
  match n with
  | 0 => x.lc
  | 1 => stWord x % 2 ^ 32
  | 2 => stWord x / 2 ^ 32
  | 3 => x.epc
  | 4 => b2n x.xen + 2 * b2n x.sen + 256 * x.smask
  | 5 => x.sigp
  | 6 => x.sign
  | 7 => cyc % 2 ^ 32
  | 8 => cyc / 2 ^ 32 % 2 ^ 32
  | 9 => e + 256 * clusterOf e
  | _ => x.prog.hd

/-- A PUTS to a special register. -/
def putSpecial (x : Engine) (n v : Nat) : Engine :=
  match n with
  | 0 => { x with lc := v }
  | 1 => { x with sat := x.sat && !bit v 2, n := bit v 1, z := bit v 0 }
  | 2 => { x with gmask := v / 65536 }
  | 3 => { x with epc := v % 4096 }
  | 4 => { x with xen := bit v 0, sen := bit v 1, smask := bits v 15 8 }
  | 5 => { x with sigp := x.sigp &&& (255 ^^^ (v % 256)) }
  | _ => x

/-- The branch that the control slot makes, if any. `x` holds the registers at issue. -/
def branchOf (x : Engine) (w : Nat) : Option BranchKind :=
  let t := ctLow w 12
  let on := fun (b : Bool) => if b then some (BranchKind.to t) else none
  match ctOp w with
  | 0x01 => some (.to t)
  | 0x02 => on x.z
  | 0x03 => on !x.z
  | 0x04 => on x.n
  | 0x05 => on !x.n
  | 0x06 => on (decide ((x.lc + 0xFFFFFFFF) % 2 ^ 32 ≠ 0))
  | 0x07 => some (.to t)
  | 0x08 => some (.to (dReg x (ctX w % 32) % 4096))
  | 0x09 => some .rets
  | 0x0A => some .rete
  | 0x0B => some .halt
  | _ => none

/-- The control slot's register effects; `x0` holds the registers at issue, `x` takes the writes. -/
def ctDo (x0 x : Engine) (e w cyc : Nat) : Engine :=
  match ctOp w with
  | 0x06 => { x with lc := (x0.lc + 0xFFFFFFFF) % 2 ^ 32 }
  | 0x07 => putD x [(31, (x0.pc + 3) % 4096)]
  | 0x09 => { x with insig := false }
  | 0x0A => { x with inexc := false }
  | 0x0F => { x with watermark := Nat.max x.watermark (dPair x0 (ctD w)) }
  | 0x10 => putD x [(ctD w, getSpecial x0 e (ctLow w 4) cyc)]
  | 0x11 => putSpecial x (ctLow w 4) (dReg x0 (ctD w))
  | 0x12 => putA x (ctLow w 3) (dReg x0 (ctD w) + 2 ^ 32 * (dReg x0 (ctD w + 1) % 64))
  | 0x13 => putD x [(ctD w, aReg x0 (ctLow w 3) % 2 ^ 32), (ctD w + 1, aReg x0 (ctLow w 3) / 2 ^ 32)]
  | 0x14 => { x with m := lmod x.m (ctLow w 3) (fun _ => dReg x0 (ctD w)) }
  | _ => x

/-- A LONG bundle's effects (Table 11-10). -/
def lgDo (x : Engine) (w : Nat) : Engine :=
  let i := lgImm w
  let r := lgR w
  match lgOp w with
  | 0x02 => putD x [(r, i % 2 ^ 32)]
  | 0x03 => putA x r i
  | 0x04 => { x with m := lmod x.m r (fun _ => i % 2 ^ 32) }
  | 0x05 => { x with b := lmod x.b r (fun _ => i % 2 ^ 38) }
  | 0x06 => { x with l := lmod x.l r (fun _ => i % 2 ^ 32) }
  | 0x07 => { x with lc := i % 2 ^ 32 }
  | _ => x

/-- PC, REPEAT and branch after a bundle: `rep` begins after a REPEAT, `br` is the branch it made. A branch whose delay
slots have issued is left in `branch` with 0. -/
def advance (x : Engine) (w : Nat) (br : Option BranchKind) : Engine :=
  let next := (x.pc + 1) % 4096
  let x := if bFmt w = 1 && decide (lgOp w = 1) then
      { x with pc := next, rep := some { start := next, k1 := repK w - 1, rc := repN w - 1, pos := 0 } }
    else match x.rep with
      | none => { x with pc := next }
      | some r =>
        if r.pos < r.k1 then { x with pc := next, rep := some { r with pos := r.pos + 1 } }
        else if r.rc = 0 then { x with pc := next, rep := none }
        else { x with pc := r.start, rep := some { r with rc := r.rc - 1, pos := 0 } }
  match x.branch with
  | some (k, l) => { x with branch := some (k, l - 1) }
  | none => { x with branch := br.map (fun k => (k, 2)) }

/-- RETE: the engine restarts at EPC as the exception left it (R352). -/
def restart (x : Engine) : Engine :=
  { x with pc := x.epc, rep := x.svRep, branch := x.svBranch, loads := x.loads ++ x.svLoads, chain := x.chain ++ x.svChain,
           svRep := none, svBranch := none, svLoads := [], svChain := [] }

/-! ### Store buffers (R336, R366, R369, R375) -/

/-- A mailbox has room. -/
def mailRoom (s : State) (c b : Nat) : Bool := decide ((nth (cluster s c).mail b []).length < 64)

/-- Raises a signal line on an engine. -/
def pendLine (s : State) (e line : Nat) : State := setEng s e (fun x => { x with sigp := x.sigp ||| (1 <<< line) })

/-- Engines of a cluster that the state lists. -/
def listed (s : State) (c : Nat) : List Nat := (clEngines c).filter (fun e => (tget? s.engines e).isSome)

/-- A push reaches a mailbox: its reader's line 1 pends when it was empty. -/
def pushMail (s : State) (c b v : Nat) : State :=
  let was := (nth (cluster s c).mail b []).isEmpty
  let s := setCluster s c (fun k => { k with mail := lmod k.mail b (fun l => l ++ [v]) })
  if was then ((listed s c).filter (fun e => (eng s e).prog.mailboxes.contains (b, 0))).foldl (fun s e => pendLine s e 1) s
  else s

/-- The open product closes with an ordinal and goes to the capture units of its engine (R369). -/
def closeProduct (s : State) (e ord : Nat) : State :=
  let x := eng s e
  let fl := x.bodyFlags ||| (if x.prog.determinate then 0 else 16)
  let h := leBytes 8 ord ++ leBytes 2 (0x0600 + e) ++ leBytes 2 0 ++ leBytes 4 x.body.length ++ leBytes 2 fl ++ leBytes 2 0 ++
    leBytes 4 (x.prodSeq + 1) ++ zeros 4
  let product := h ++ leBytes 4 (crc32c (h ++ x.body)) ++ x.body
  let s := setEng s e (fun x => { x with body := [], bodyFlags := 0, prodSeq := x.prodSeq + 1 })
  (capsOf s (0x0600 + e)).foldl (fun s u =>
    pushItem s u { typ := 0x15, ord := ord, last := ord, index := ord, body := product, flags := fl % 16 }) s

/-- The head entry of a store buffer can drain: a push needs room in its mailbox, a product its capture units. -/
def headFree (s : State) (e : Nat) (x : StoreEnt) : Bool :=
  if x.op = 0 && decide (regionAt s x.addr = some 2) then
    match ioReg (x.addr - 0x2000000) with
    | some (0, b) => mailRoom s (clusterOf e) b
    | some (7, _) => !capBlocked s (0x0600 + e)
    | _ => true
  else true

/-- The head entry reaches its place. -/
def storeOut (s : State) (e : Nat) (x : StoreEnt) : State :=
  if x.op ≠ 0 then
    let old := leNat ((List.range 4).map (fun i => byteAt s e (x.addr + i)))
    let r := commute x.op old (leNat x.bytes)
    let s := writeAt s e x.addr (leBytes 4 r.1)
    if r.2 then setEng s e (fun y => { y with sat := true }) else s
  else if regionAt s x.addr = some 2 then
    match ioReg (x.addr - 0x2000000) with
    | some (0, b) => pushMail s (clusterOf e) b (leNat x.bytes)
    | some (5, _) => setEng s e (fun y => { y with body := y.body ++ x.bytes })
    | some (7, _) => closeProduct s e (leNat x.bytes)
    | some (8, _) => (setBits 16 (leNat x.bytes)).foldl (fun s i =>
        if (tget? s.engines (16 * clusterOf e + i)).isSome then pendLine s (16 * clusterOf e + i) 4 else s) s
    | _ => s
  else writeAt s e x.addr x.bytes

/-! ### Epochs and spares (R382 to R386) -/

/-- The epoch of a cluster advances, and line 5 pends on its engines (R383). -/
def advanceEpoch (s : State) (c : Nat) : State :=
  let s := setCluster s c (fun k => { k with epoch := (k.epoch + 1) % 2 ^ 32 })
  (listed s c).foldl (fun s e =>
    if (eng s e).saved || (eng s e).st = .offline then s
    else setEng s e (fun x => { x with sigp := x.sigp ||| 32, epoch := (cluster s c).epoch })) s

/-- `ae.physical`. -/
def physicalOf (s : State) (e : Nat) : Nat :=
  match (eng s e).physical with
  | none => e
  | some c => 256 + c

/-- A spare takes the place of a physical engine under its number (R386). -/
def substitute (s : State) (e : Nat) : State :=
  let c := clusterOf e
  if (cluster s c).spare ≠ 0 then s
  else
    let s := setCluster s c (fun k => { k with spare := 1 })
    let s := setEng s e (fun x => { x with physical := some c, pauseSubst := false, substNext := false })
    let s := advanceEpoch s c
    raise s 0x0C03 e (physicalOf s e)

/-- An engine whose buffer has drained stops in a state; a substitution that waited for a stop is made. -/
def restState (s : State) (e : Nat) (st : EngState) : State :=
  let s := setEng s e (fun x => { x with st, branch := none, rep := none, stall := .none })
  if (eng s e).pauseSubst || (eng s e).substNext then substitute s e else s

/-- A HALT waits for the buffer to drain. -/
def haltWaits (x : Engine) : Bool := match x.branch with
  | some (.halt, 0) => true
  | _ => false

/-- Drains the head entry, if it can; an empty buffer ends a FENCE, and brings a HALT into effect. -/
def drainHead (s : State) (e : Nat) : State :=
  match (eng s e).buf with
  | [] => s
  | x :: rest =>
    if headFree s e x then
      let s := setEng s e (fun y => { y with buf := rest })
      let s := storeOut s e x
      if (eng s e).buf.isEmpty && decide ((eng s e).stall = .fence) then
        (if haltWaits (eng s e) then restState s e .halted else setEng s e (fun y => { y with stall := .none }))
      else s
    else s

/-- Drains the whole buffer, as far as it can (R375). -/
def drainAll (s : State) (e : Nat) : State := (List.range 8).foldl (fun s _ => drainHead s e) s

/-! ### Stops -/

/-- An engine stops in a state: results land, the buffer drains, and a substitution that waited for a stop is made. -/
def stopEngine (s : State) (e : Nat) (st : EngState) : State :=
  restState (drainAll (setEng s e landAll) e) e st

/-- HALT (R362): results land, the store buffer drains, and the engine stops HALTED; it waits where an entry cannot drain. -/
def haltEngine (s : State) (e : Nat) : State :=
  let s := drainAll (setEng s e landAll) e
  if (eng s e).buf.isEmpty then restState s e .halted
  else setEng s e (fun x => { x with branch := some (.halt, 0), stall := .fence })

/-! ### Issue -/

/-- A branch whose delay slots have issued takes effect. -/
def takeBranch (s : State) (e : Nat) : State :=
  match (eng s e).branch with
  | some (k, 0) =>
    let s := setEng s e (fun x => { x with branch := none })
    match k with
    | .to t => setEng s e (fun x => { x with pc := t })
    | .rets => setEng s e (fun x => { x with pc := x.epc })
    | .rete => setEng s e restart
    | .halt => haltEngine s e
  | _ => s

/-- Some pause request is present. -/
def pauseAsked (x : Engine) : Bool := x.pauseGate || x.pauseShed || x.pauseRoom || x.pauseSubst

/-- At SAFEPT with a pause request: results land and the engine stops PAUSED; a substitution is made and, without
another request, the engine runs on (R359, R381, R384, R386). -/
def safePoint (s : State) (e : Nat) : State :=
  if !pauseAsked (eng s e) then s
  else
    let s := drainAll (setEng s e landAll) e
    let s := if (eng s e).pauseSubst then substitute s e else s
    let s := setEng s e (fun x => { x with pauseSubst := false })
    let x := eng s e
    if x.pauseGate || x.pauseShed || x.pauseRoom then
      setEng s e (fun x => { x with st := .paused, saved := x.pauseGate })
    else s

/-- EVT: an engine event goes to the cue sheets, and from CL0 to the wake logic (R360). -/
def engineEvent (s : State) (e code ord : Nat) : State :=
  let s := if running s (cueChan s) then
      { s with cue := { s.cue with arriving := s.cue.arriving ++ [{ kind := 0x06, inst := code, ord, tests := [2] }] } }
    else s
  if clusterOf e = 0 then fireWake s 3 none else s

/-- The load results of a bundle whose data are at hand. -/
def loadDone (x : Engine) (w : Nat) (bs : List Byte) : Engine :=
  let r := loadValue (lsOp w) (lsD w) bs
  { x with loads := x.loads ++ [{ left := 2, dst := r.1 }], sat := x.sat || r.2 }

/-- GATHER: elements arrive in ascending order up to the first that faults (R347, R348). -/
def gatherDo (s : State) (e w : Nat) : State × Option EngFault :=
  (gatherLeft (eng s e) w).foldl (fun (acc : State × Option EngFault) i =>
    match acc.2 with
    | some _ => acc
    | none =>
      match elementFault acc.1 e w i with
      | some f => (acc.1, some f)
      | none =>
        let v := leNat (engRead acc.1 e (gatherAddr acc.1 e w i) 4)
        (setEng acc.1 e (fun x => { putD x [(lsD w + i, v)] with gmask := x.gmask ||| (1 <<< i) }), none)) (s, none)

/-- The counts of an engine whose bundle issues: bundles since an open boundary, their peak, and all of them. -/
def counted (x : Engine) : Engine :=
  { x with hold := holdNow x + 1, holdPeak := Nat.max x.holdPeak (holdNow x + 1), bundles := (x.bundles + 1) % 2 ^ 64, stall := .none }

/-- The arithmetic slot's effects; `x0` holds the registers at issue, `x` takes the writes. -/
def arSlot (x0 : Engine) (w : Nat) (x : Engine) : Engine :=
  let ar := arDo x0 w
  { x with
    d := putRegs x.d ar.1
    chain := if ar.2.1.isEmpty then x.chain else x.chain ++ [{ left := 3, terms := ar.2.1 }]
    sat := x.sat || ar.2.2.1
    z := (ar.2.2.2.getD (x.z, x.n)).1
    n := (ar.2.2.2.getD (x.z, x.n)).2 }

/-- The load/store slot's effects; `bs` are the bytes a load has read. -/
def lsSlot (x0 : Engine) (w : Nat) (bs : List Byte) (x : Engine) : Engine :=
  let op := lsOp w
  if lsIsLoad op then loadDone x w bs
  else if op = 0x0D then { x with gmask := 0 }
  else if lsIsStore op then
    let v := storeValue x0 op (lsD w)
    { x with buf := x.buf ++ [{ addr := effAddr x0 w, op := 0, bytes := v.1 }], sat := x.sat || v.2 }
  else if lsIsComm op then { x with buf := x.buf ++ [{ addr := effAddr x0 w, op, bytes := leBytes 4 (dReg x0 (lsD w)) }] }
  else x

/-- The post-modification of the load/store slot. -/
def amSlot (x0 : Engine) (w : Nat) (x : Engine) : Engine :=
  if lsOp w = 0 || lsOp w = 0x0D then x
  else if lsAm w = 1 then putA x (lsA w) (addrAdd (aReg x0 (lsA w)) (mReg x0 (lsM w)))
  else if lsAm w = 2 then putA x (lsA w) (addrCirc x0 (lsA w) (lsM w))
  else x

/-- The address slot's effects. -/
def adSlot (x0 : Engine) (w : Nat) (x : Engine) : Engine :=
  match adOp w with
  | 1 => putA x (adA w) (addrAdd (aReg x0 (adA w)) (mReg x0 (adM w)))
  | 2 => putA x (adA w) (addrAdd (aReg x0 (adA w)) (-(mReg x0 (adM w))))
  | 3 => putA x (adA w) (addrCirc x0 (adA w) (adM w))
  | _ => x

/-- The registers after a NORMAL bundle: results that are due land, then its slots write. `cyc` is what CYCL and CYCH
read. -/
def bundleRegs (x : Engine) (e w : Nat) (bs : List Byte) (cyc : Nat) : Engine :=
  advance (ctDo x (adSlot x w (amSlot x w (lsSlot x w bs (arSlot x w (landDue (counted x)))))) e w cyc) w (branchOf x w)

/-- What a NORMAL bundle does beside its registers; `ea` is the address of its load/store slot, `ev` the pair of EVT. -/
def bundleActs (s : State) (e w ea ev : Nat) : State :=
  let s := if lsOp w = 0x0E && decide (regionAt s ea = some 3) then lineRead s (clusterOf e) ((ea - 0x2000000000) / 64) else s
  match ctOp w with
  | 0x0C => safePoint s e
  | 0x0D => setEng s e (fun x => { landAll x with st := .waiting })
  | 0x0E => engineEvent s e (ctLow w 8) ev
  | 0x15 => setEng s e (fun x => if x.buf.isEmpty then x else { x with stall := .fence })
  | _ => s

/-- GETS reads the cycle counter. -/
def readsCyc (w : Nat) : Bool := bFmt w = 0 && decide (ctOp w = 0x10) && (ctLow w 4 = 7 || ctLow w 4 = 8)

/-- The whole effect of a bundle that does not fault: `bs` are the bytes its load has read. -/
def execute (s : State) (e w : Nat) (bs : List Byte) : State :=
  let x0 := eng s e
  let (cyc, s) := if readsCyc w then takeFree s else (0, s)
  if bFmt w = 1 then
    takeBranch (setEng s e (fun x => advance (lgDo (landDue (counted x)) w) w none)) e
  else
    takeBranch (bundleActs (setEng s e (fun x => bundleRegs x e w bs cyc)) e w (effAddr x0 w) (dPair x0 (ctD w))) e

/-- The bundle's load waits for data: shared memory, cluster I/O or HBM (R336), or a GATHER with such an element. -/
def waitsForData (s : State) (e w : Nat) : Bool :=
  bFmt w = 0 &&
  (if lsOp w = 0x0D then (gatherLeft (eng s e) w).any (fun i => decide (regionAt s (gatherAddr s e w i) ≠ some 0))
   else lsIsLoad (lsOp w) && decide (regionAt s (effAddr (eng s e) w) ≠ some 0))

/-- The bundle at PC. -/
def bundleAt (s : State) (e : Nat) : Nat := tgetD (eng s e).imem (eng s e).pc 0

/-- The bundle's data have arrived: a GATHER reads its elements, and the bundle takes effect or its exception. -/
def complete (s : State) (e : Nat) (bs : List Byte) : State :=
  let w := bundleAt s e
  if bFmt w = 0 && decide (lsOp w = 0x0D) then
    match gatherDo s e w with
    | (s, some f) => takeException s e w f
    | (s, none) => execute s e w []
  else execute s e w bs

/-- The engine can issue now: RUNNING, no hold, no signal to take, and room in its store buffer. -/
def canIssue (s : State) (e : Nat) : Bool :=
  let x := eng s e
  let w := bundleAt s e
  decide (x.st = .running) && decide (x.stall = .none) && !(openBoundary x && (lineDue x).isSome) &&
  !(decide (8 ≤ x.buf.length) && decide (bFmt w = 0) && (lsIsStore (lsOp w) || lsIsComm (lsOp w)))

/-- Issues the bundle at PC: it faults, waits for its data, or takes effect. -/
def issue (s : State) (e : Nat) : State :=
  let w := bundleAt s e
  match worst (bundleFaults s e w) with
  | some f => takeException s e w f
  | none =>
    if waitsForData s e w then setEng s e (fun x => { x with stall := .data })
    else complete s e (if bFmt w = 0 && lsIsLoad (lsOp w) then engRead s e (effAddr (eng s e) w) (lsSize (lsOp w)) else [])

/-- SIGNAL_TAKEN: the signal diverts the engine at an open boundary (R355, R358). -/
def takeSignal (s : State) (e : Nat) : State :=
  let x := eng s e
  match lineDue x with
  | some l =>
    if openBoundary x && (x.st = .running || x.st = .waiting) && decide (x.stall = .none) then
      setEng s e (fun x => { x with st := .running, sigp := x.sigp &&& (255 ^^^ (1 <<< l)), sign := l, epc := x.pc, insig := true, pc := 16 })
    else s
  | none => s

end Sys2Proof.Machine
end

