-- ==== Sys2Proof/Machine/EngineRows.lean ====
section
/-! DEFINITION. The engine rows: each issues the bundle at PC where one of its slots is the row's operation with the
row's fields, and has no effect elsewhere (R330 to R362); then the arrival of data, the draining of stores, and
signals (R336, R354 to R358, R364 to R369). -/
namespace Sys2Proof.Machine

/-- Issues the bundle at PC where `m` says that the row names one of its slots. -/
def issueIf (s : State) (e : Nat) (m : Nat → Bool) : State :=
  if canIssue s e && m (bundleAt s e) then issue s e else s

/-- The arithmetic slot is an operation with its fields. -/
def isAr (op a b c w : Nat) : Bool :=
  decide (bFmt w = 0) && decide (arOp w = op) && decide (arA w = a) && decide (arB w = b) && decide (arC w = c)

/-- The load/store slot is an operation with its fields. -/
def isLs (op d a m am w : Nat) : Bool :=
  decide (bFmt w = 0) && decide (lsOp w = op) && decide (lsD w = d) && decide (lsA w = a) && decide (lsM w = m) &&
  decide (lsAm w = am)

/-- The address slot is an operation with its fields. -/
def isAd (op a m w : Nat) : Bool :=
  decide (bFmt w = 0) && decide (adOp w = op) && decide (adA w = a) && decide (adM w = m)

/-- The control slot is an operation with its field. -/
def isCt (op x w : Nat) : Bool := decide (bFmt w = 0) && decide (ctOp w = op) && decide (ctX w = x)

/-- The bundle is LONG with an operation and its fields. -/
def isLg (op r imm w : Nat) : Bool :=
  decide (bFmt w = 1) && decide (lgOp w = op) && decide (lgR w = r) && decide (lgImm w = imm)

/-- A slot is a NOP; or the bundle holds something that no operation spells, which faults ILLEGAL. -/
def isNop (w : Nat) : Bool :=
  if bFmt w = 0 then
    decide (arOp w = 0) || decide (lsOp w = 0) || decide (adOp w = 0) || decide (ctOp w = 0) ||
    decide (0x1E ≤ arOp w) || decide (lsOp w = 0x0F) || decide (0x14 ≤ lsOp w) || decide (0x17 ≤ ctOp w)
  else if bFmt w = 1 then decide (lgOp w = 0) || decide (7 < lgOp w)
  else true

/-- NOP (R330). -/
def execNop (e : Fin 256) (s : State) : Host.Outcome State Fault Refusal := .next (issueIf s e isNop)

/-! ### The arithmetic slot (Table 11-7) -/

/-- DMAC. -/
def execDmac (e : Fin 256) (a b : BitVec 5) (c : BitVec 3) (s : State) : Host.Outcome State Fault Refusal :=
  .next (issueIf s e (isAr 0x01 a.toNat b.toNat c.toNat))

/-- QMAC. -/
def execQmac (e : Fin 256) (a b : BitVec 5) (c : BitVec 3) (s : State) : Host.Outcome State Fault Refusal :=
  .next (issueIf s e (isAr 0x02 a.toNat b.toNat c.toNat))

/-- RMAC. -/
def execRmac (e : Fin 256) (a b : BitVec 5) (c : BitVec 3) (s : State) : Host.Outcome State Fault Refusal :=
  .next (issueIf s e (isAr 0x03 a.toNat b.toNat c.toNat))

/-- ACCRD. -/
def execAccrd (e : Fin 256) (a b : BitVec 5) (c : BitVec 3) (s : State) : Host.Outcome State Fault Refusal :=
  .next (issueIf s e (isAr 0x04 a.toNat b.toNat c.toNat))

/-- ACCRD18. -/
def execAccrd18 (e : Fin 256) (a b : BitVec 5) (c : BitVec 3) (s : State) : Host.Outcome State Fault Refusal :=
  .next (issueIf s e (isAr 0x05 a.toNat b.toNat c.toNat))

/-- ACCLD. -/
def execAccld (e : Fin 256) (a b : BitVec 5) (c : BitVec 3) (s : State) : Host.Outcome State Fault Refusal :=
  .next (issueIf s e (isAr 0x06 a.toNat b.toNat c.toNat))

/-- ACCCLR. -/
def execAccclr (e : Fin 256) (a b : BitVec 5) (c : BitVec 3) (s : State) : Host.Outcome State Fault Refusal :=
  .next (issueIf s e (isAr 0x07 a.toNat b.toNat c.toNat))

/-- ADD. -/
def execAdd (e : Fin 256) (a b : BitVec 5) (c : BitVec 3) (s : State) : Host.Outcome State Fault Refusal :=
  .next (issueIf s e (isAr 0x08 a.toNat b.toNat c.toNat))

/-- ADDS. -/
def execAdds (e : Fin 256) (a b : BitVec 5) (c : BitVec 3) (s : State) : Host.Outcome State Fault Refusal :=
  .next (issueIf s e (isAr 0x09 a.toNat b.toNat c.toNat))

/-- SUB. -/
def execSub (e : Fin 256) (a b : BitVec 5) (c : BitVec 3) (s : State) : Host.Outcome State Fault Refusal :=
  .next (issueIf s e (isAr 0x0A a.toNat b.toNat c.toNat))

/-- SUBS. -/
def execSubs (e : Fin 256) (a b : BitVec 5) (c : BitVec 3) (s : State) : Host.Outcome State Fault Refusal :=
  .next (issueIf s e (isAr 0x0B a.toNat b.toNat c.toNat))

/-- AND. -/
def execAnd (e : Fin 256) (a b : BitVec 5) (c : BitVec 3) (s : State) : Host.Outcome State Fault Refusal :=
  .next (issueIf s e (isAr 0x0C a.toNat b.toNat c.toNat))

/-- OR. -/
def execOr (e : Fin 256) (a b : BitVec 5) (c : BitVec 3) (s : State) : Host.Outcome State Fault Refusal :=
  .next (issueIf s e (isAr 0x0D a.toNat b.toNat c.toNat))

/-- XOR. -/
def execXor (e : Fin 256) (a b : BitVec 5) (c : BitVec 3) (s : State) : Host.Outcome State Fault Refusal :=
  .next (issueIf s e (isAr 0x0E a.toNat b.toNat c.toNat))

/-- MOV. -/
def execMov (e : Fin 256) (a b : BitVec 5) (c : BitVec 3) (s : State) : Host.Outcome State Fault Refusal :=
  .next (issueIf s e (isAr 0x0F a.toNat b.toNat c.toNat))

/-- SHLI. -/
def execShli (e : Fin 256) (a b : BitVec 5) (c : BitVec 3) (s : State) : Host.Outcome State Fault Refusal :=
  .next (issueIf s e (isAr 0x10 a.toNat b.toNat c.toNat))

/-- SHRI. -/
def execShri (e : Fin 256) (a b : BitVec 5) (c : BitVec 3) (s : State) : Host.Outcome State Fault Refusal :=
  .next (issueIf s e (isAr 0x11 a.toNat b.toNat c.toNat))

/-- SARI. -/
def execSari (e : Fin 256) (a b : BitVec 5) (c : BitVec 3) (s : State) : Host.Outcome State Fault Refusal :=
  .next (issueIf s e (isAr 0x12 a.toNat b.toNat c.toNat))

/-- RNDI. -/
def execRndi (e : Fin 256) (a b : BitVec 5) (c : BitVec 3) (s : State) : Host.Outcome State Fault Refusal :=
  .next (issueIf s e (isAr 0x13 a.toNat b.toNat c.toNat))

/-- SAT18I. -/
def execSat18i (e : Fin 256) (a b : BitVec 5) (c : BitVec 3) (s : State) : Host.Outcome State Fault Refusal :=
  .next (issueIf s e (isAr 0x14 a.toNat b.toNat c.toNat))

/-- CMP. -/
def execCmp (e : Fin 256) (a b : BitVec 5) (c : BitVec 3) (s : State) : Host.Outcome State Fault Refusal :=
  .next (issueIf s e (isAr 0x15 a.toNat b.toNat c.toNat))

/-- CMPU. -/
def execCmpu (e : Fin 256) (a b : BitVec 5) (c : BitVec 3) (s : State) : Host.Outcome State Fault Refusal :=
  .next (issueIf s e (isAr 0x16 a.toNat b.toNat c.toNat))

/-- MIN. -/
def execMin (e : Fin 256) (a b : BitVec 5) (c : BitVec 3) (s : State) : Host.Outcome State Fault Refusal :=
  .next (issueIf s e (isAr 0x17 a.toNat b.toNat c.toNat))

/-- MAX. -/
def execMax (e : Fin 256) (a b : BitVec 5) (c : BitVec 3) (s : State) : Host.Outcome State Fault Refusal :=
  .next (issueIf s e (isAr 0x18 a.toNat b.toNat c.toNat))

/-- ABS. -/
def execAbs (e : Fin 256) (a b : BitVec 5) (c : BitVec 3) (s : State) : Host.Outcome State Fault Refusal :=
  .next (issueIf s e (isAr 0x19 a.toNat b.toNat c.toNat))

/-- NEG. -/
def execNeg (e : Fin 256) (a b : BitVec 5) (c : BitVec 3) (s : State) : Host.Outcome State Fault Refusal :=
  .next (issueIf s e (isAr 0x1A a.toNat b.toNat c.toNat))

/-- PACK16. -/
def execPack16 (e : Fin 256) (a b : BitVec 5) (c : BitVec 3) (s : State) : Host.Outcome State Fault Refusal :=
  .next (issueIf s e (isAr 0x1B a.toNat b.toNat c.toNat))

/-- ADDI. -/
def execAddi (e : Fin 256) (a b : BitVec 5) (c : BitVec 3) (s : State) : Host.Outcome State Fault Refusal :=
  .next (issueIf s e (isAr 0x1C a.toNat b.toNat c.toNat))

/-- MOVI. -/
def execMovi (e : Fin 256) (a b : BitVec 5) (c : BitVec 3) (s : State) : Host.Outcome State Fault Refusal :=
  .next (issueIf s e (isAr 0x1D a.toNat b.toNat c.toNat))

/-! ### The load/store slot (Table 11-8) -/

/-- LDW. -/
def execLdw (e : Fin 256) (d : BitVec 5) (a m : BitVec 3) (am : BitVec 2) (s : State) : Host.Outcome State Fault Refusal :=
  .next (issueIf s e (isLs 0x01 d.toNat a.toNat m.toNat am.toNat))

/-- LDH. -/
def execLdh (e : Fin 256) (d : BitVec 5) (a m : BitVec 3) (am : BitVec 2) (s : State) : Host.Outcome State Fault Refusal :=
  .next (issueIf s e (isLs 0x02 d.toNat a.toNat m.toNat am.toNat))

/-- LDHU. -/
def execLdhu (e : Fin 256) (d : BitVec 5) (a m : BitVec 3) (am : BitVec 2) (s : State) : Host.Outcome State Fault Refusal :=
  .next (issueIf s e (isLs 0x03 d.toNat a.toNat m.toNat am.toNat))

/-- LDT. -/
def execLdt (e : Fin 256) (d : BitVec 5) (a m : BitVec 3) (am : BitVec 2) (s : State) : Host.Outcome State Fault Refusal :=
  .next (issueIf s e (isLs 0x04 d.toNat a.toNat m.toNat am.toNat))

/-- LDP. -/
def execLdp (e : Fin 256) (d : BitVec 5) (a m : BitVec 3) (am : BitVec 2) (s : State) : Host.Outcome State Fault Refusal :=
  .next (issueIf s e (isLs 0x05 d.toNat a.toNat m.toNat am.toNat))

/-- LDC16. -/
def execLdc16 (e : Fin 256) (d : BitVec 5) (a m : BitVec 3) (am : BitVec 2) (s : State) : Host.Outcome State Fault Refusal :=
  .next (issueIf s e (isLs 0x06 d.toNat a.toNat m.toNat am.toNat))

/-- LDC24. -/
def execLdc24 (e : Fin 256) (d : BitVec 5) (a m : BitVec 3) (am : BitVec 2) (s : State) : Host.Outcome State Fault Refusal :=
  .next (issueIf s e (isLs 0x07 d.toNat a.toNat m.toNat am.toNat))

/-- STW. -/
def execStw (e : Fin 256) (d : BitVec 5) (a m : BitVec 3) (am : BitVec 2) (s : State) : Host.Outcome State Fault Refusal :=
  .next (issueIf s e (isLs 0x08 d.toNat a.toNat m.toNat am.toNat))

/-- STH. -/
def execSth (e : Fin 256) (d : BitVec 5) (a m : BitVec 3) (am : BitVec 2) (s : State) : Host.Outcome State Fault Refusal :=
  .next (issueIf s e (isLs 0x09 d.toNat a.toNat m.toNat am.toNat))

/-- STT. -/
def execStt (e : Fin 256) (d : BitVec 5) (a m : BitVec 3) (am : BitVec 2) (s : State) : Host.Outcome State Fault Refusal :=
  .next (issueIf s e (isLs 0x0A d.toNat a.toNat m.toNat am.toNat))

/-- STP. -/
def execStp (e : Fin 256) (d : BitVec 5) (a m : BitVec 3) (am : BitVec 2) (s : State) : Host.Outcome State Fault Refusal :=
  .next (issueIf s e (isLs 0x0B d.toNat a.toNat m.toNat am.toNat))

/-- STC16. -/
def execStc16 (e : Fin 256) (d : BitVec 5) (a m : BitVec 3) (am : BitVec 2) (s : State) : Host.Outcome State Fault Refusal :=
  .next (issueIf s e (isLs 0x0C d.toNat a.toNat m.toNat am.toNat))

/-- GATHER. -/
def execGather (e : Fin 256) (d : BitVec 5) (a m : BitVec 3) (am : BitVec 2) (s : State) : Host.Outcome State Fault Refusal :=
  .next (issueIf s e (isLs 0x0D d.toNat a.toNat m.toNat am.toNat))

/-- PREF. -/
def execPref (e : Fin 256) (d : BitVec 5) (a m : BitVec 3) (am : BitVec 2) (s : State) : Host.Outcome State Fault Refusal :=
  .next (issueIf s e (isLs 0x0E d.toNat a.toNat m.toNat am.toNat))

/-- CADDS. -/
def execCadds (e : Fin 256) (d : BitVec 5) (a m : BitVec 3) (am : BitVec 2) (s : State) : Host.Outcome State Fault Refusal :=
  .next (issueIf s e (isLs 0x10 d.toNat a.toNat m.toNat am.toNat))

/-- CMAX. -/
def execCmax (e : Fin 256) (d : BitVec 5) (a m : BitVec 3) (am : BitVec 2) (s : State) : Host.Outcome State Fault Refusal :=
  .next (issueIf s e (isLs 0x11 d.toNat a.toNat m.toNat am.toNat))

/-- CMIN. -/
def execCmin (e : Fin 256) (d : BitVec 5) (a m : BitVec 3) (am : BitVec 2) (s : State) : Host.Outcome State Fault Refusal :=
  .next (issueIf s e (isLs 0x12 d.toNat a.toNat m.toNat am.toNat))

/-- COR. -/
def execCor (e : Fin 256) (d : BitVec 5) (a m : BitVec 3) (am : BitVec 2) (s : State) : Host.Outcome State Fault Refusal :=
  .next (issueIf s e (isLs 0x13 d.toNat a.toNat m.toNat am.toNat))

/-! ### The address slot (R337) -/

/-- ADDA. -/
def execAdda (e : Fin 256) (a m : BitVec 3) (s : State) : Host.Outcome State Fault Refusal :=
  .next (issueIf s e (isAd 1 a.toNat m.toNat))

/-- SUBA. -/
def execSuba (e : Fin 256) (a m : BitVec 3) (s : State) : Host.Outcome State Fault Refusal :=
  .next (issueIf s e (isAd 2 a.toNat m.toNat))

/-- CIRA. -/
def execCira (e : Fin 256) (a m : BitVec 3) (s : State) : Host.Outcome State Fault Refusal :=
  .next (issueIf s e (isAd 3 a.toNat m.toNat))

/-! ### The control slot (Table 11-9) -/

/-- BR. -/
def execBr (e : Fin 256) (x : BitVec 13) (s : State) : Host.Outcome State Fault Refusal :=
  .next (issueIf s e (isCt 0x01 x.toNat))

/-- BZ. -/
def execBz (e : Fin 256) (x : BitVec 13) (s : State) : Host.Outcome State Fault Refusal :=
  .next (issueIf s e (isCt 0x02 x.toNat))

/-- BNZ. -/
def execBnz (e : Fin 256) (x : BitVec 13) (s : State) : Host.Outcome State Fault Refusal :=
  .next (issueIf s e (isCt 0x03 x.toNat))

/-- BN. -/
def execBn (e : Fin 256) (x : BitVec 13) (s : State) : Host.Outcome State Fault Refusal :=
  .next (issueIf s e (isCt 0x04 x.toNat))

/-- BNN. -/
def execBnn (e : Fin 256) (x : BitVec 13) (s : State) : Host.Outcome State Fault Refusal :=
  .next (issueIf s e (isCt 0x05 x.toNat))

/-- BLC. -/
def execBlc (e : Fin 256) (x : BitVec 13) (s : State) : Host.Outcome State Fault Refusal :=
  .next (issueIf s e (isCt 0x06 x.toNat))

/-- JAL. -/
def execJal (e : Fin 256) (x : BitVec 13) (s : State) : Host.Outcome State Fault Refusal :=
  .next (issueIf s e (isCt 0x07 x.toNat))

/-- JR. -/
def execJr (e : Fin 256) (x : BitVec 13) (s : State) : Host.Outcome State Fault Refusal :=
  .next (issueIf s e (isCt 0x08 x.toNat))

/-- RETS. -/
def execRets (e : Fin 256) (x : BitVec 13) (s : State) : Host.Outcome State Fault Refusal :=
  .next (issueIf s e (isCt 0x09 x.toNat))

/-- RETE. -/
def execRete (e : Fin 256) (x : BitVec 13) (s : State) : Host.Outcome State Fault Refusal :=
  .next (issueIf s e (isCt 0x0A x.toNat))

/-- HALT. -/
def execHalt (e : Fin 256) (x : BitVec 13) (s : State) : Host.Outcome State Fault Refusal :=
  .next (issueIf s e (isCt 0x0B x.toNat))

/-- SAFEPT. -/
def execSafept (e : Fin 256) (x : BitVec 13) (s : State) : Host.Outcome State Fault Refusal :=
  .next (issueIf s e (isCt 0x0C x.toNat))

/-- SIGWAIT. -/
def execSigwait (e : Fin 256) (x : BitVec 13) (s : State) : Host.Outcome State Fault Refusal :=
  .next (issueIf s e (isCt 0x0D x.toNat))

/-- EVT. -/
def execEvt (e : Fin 256) (x : BitVec 13) (s : State) : Host.Outcome State Fault Refusal :=
  .next (issueIf s e (isCt 0x0E x.toNat))

/-- WMARK. -/
def execWmark (e : Fin 256) (x : BitVec 13) (s : State) : Host.Outcome State Fault Refusal :=
  .next (issueIf s e (isCt 0x0F x.toNat))

/-- GETS. -/
def execGets (e : Fin 256) (x : BitVec 13) (s : State) : Host.Outcome State Fault Refusal :=
  .next (issueIf s e (isCt 0x10 x.toNat))

/-- PUTS. -/
def execPuts (e : Fin 256) (x : BitVec 13) (s : State) : Host.Outcome State Fault Refusal :=
  .next (issueIf s e (isCt 0x11 x.toNat))

/-- MOVA. -/
def execMova (e : Fin 256) (x : BitVec 13) (s : State) : Host.Outcome State Fault Refusal :=
  .next (issueIf s e (isCt 0x12 x.toNat))

/-- MOVAD. -/
def execMovad (e : Fin 256) (x : BitVec 13) (s : State) : Host.Outcome State Fault Refusal :=
  .next (issueIf s e (isCt 0x13 x.toNat))

/-- MOVM. -/
def execMovm (e : Fin 256) (x : BitVec 13) (s : State) : Host.Outcome State Fault Refusal :=
  .next (issueIf s e (isCt 0x14 x.toNat))

/-- FENCE. -/
def execFence (e : Fin 256) (x : BitVec 13) (s : State) : Host.Outcome State Fault Refusal :=
  .next (issueIf s e (isCt 0x15 x.toNat))

/-- BRK. -/
def execBrk (e : Fin 256) (x : BitVec 13) (s : State) : Host.Outcome State Fault Refusal :=
  .next (issueIf s e (isCt 0x16 x.toNat))

/-! ### Long bundles (Table 11-10) -/

/-- REPEATN. -/
def execRepeatN (e : Fin 256) (r : BitVec 5) (imm : BitVec 48) (s : State) : Host.Outcome State Fault Refusal :=
  .next (issueIf s e (isLg 0x01 r.toNat imm.toNat))

/-- LDID. -/
def execLdiD (e : Fin 256) (r : BitVec 5) (imm : BitVec 48) (s : State) : Host.Outcome State Fault Refusal :=
  .next (issueIf s e (isLg 0x02 r.toNat imm.toNat))

/-- LDIA. -/
def execLdiA (e : Fin 256) (r : BitVec 5) (imm : BitVec 48) (s : State) : Host.Outcome State Fault Refusal :=
  .next (issueIf s e (isLg 0x03 r.toNat imm.toNat))

/-- LDIM. -/
def execLdiM (e : Fin 256) (r : BitVec 5) (imm : BitVec 48) (s : State) : Host.Outcome State Fault Refusal :=
  .next (issueIf s e (isLg 0x04 r.toNat imm.toNat))

/-- LDIB. -/
def execLdiB (e : Fin 256) (r : BitVec 5) (imm : BitVec 48) (s : State) : Host.Outcome State Fault Refusal :=
  .next (issueIf s e (isLg 0x05 r.toNat imm.toNat))

/-- LDIL. -/
def execLdiL (e : Fin 256) (r : BitVec 5) (imm : BitVec 48) (s : State) : Host.Outcome State Fault Refusal :=
  .next (issueIf s e (isLg 0x06 r.toNat imm.toNat))

/-- LDILC. -/
def execLdiLC (e : Fin 256) (r : BitVec 5) (imm : BitVec 48) (s : State) : Host.Outcome State Fault Refusal :=
  .next (issueIf s e (isLg 0x07 r.toNat imm.toNat))

/-! ### Data, stores and signals -/

/-- What the load of the bundle at PC reads of the cluster I/O map: name and index. -/
def ioOfLoad (s : State) (e : Nat) : Option (Nat × Nat) :=
  let w := bundleAt s e
  let a := effAddr (eng s e) w
  if bFmt w = 0 && lsIsLoad (lsOp w) && decide (regionAt s a = some 2) then ioReg (a - 0x2000000) else none

/-- The bundle that waits takes effect with its data, or the exception that the access now meets. -/
def arrive (s : State) (e : Nat) (bs : List Byte) : State :=
  match worst (lsFaults s e (bundleAt s e)) with
  | some f => takeException s e (bundleAt s e) f
  | none => complete s e bs

/-- An entry of the store buffer goes to cluster I/O. -/
def ioEntry (x : StoreEnt) : Bool := decide (0x2000000 ≤ x.addr) && decide (x.addr < 0x2010000)

/-- The value of a register of cluster I/O that a load does not pop. -/
def ioValue (s : State) (e name i : Nat) : Nat :=
  match name with
  | 1 => (nth (cluster s (clusterOf e)).mail i []).length
  | 3 =>
    let p := nth (eng s e).ports i {}
    if p.midway then (p.recs.head?).elim 0 (fun r => r.bytes.length) else 0
  | 4 => portBytes (nth (eng s e).ports i {})
  | _ => (eng s e).body.length

/-- A cluster's cache takes the line of a load from HBM (R370). -/
def loadLine (s : State) (e : Nat) : State :=
  let a := effAddr (eng s e) (bundleAt s e)
  if lsIsLoad (lsOp (bundleAt s e)) && decide (regionAt s a = some 3) then lineRead s (clusterOf e) ((a - 0x2000000000) / 64) else s

/-- LOAD_DATA_ARRIVAL: data of a load that holds issue arrive, but for the pops of MB_DATA and IP_DATA. -/
def execLoadDataArrival (e : Fin 256) (s : State) : Host.Outcome State Fault Refusal :=
  let x := eng s e
  .next (if x.stall ≠ .data then s
    else match ioOfLoad s e with
      | some (0, _) => s
      | some (2, _) => s
      | some (n, i) => if x.buf.any ioEntry then s else arrive s e (leBytes 4 (ioValue s e n i))
      | none =>
        let w := bundleAt s e
        let s := loadLine s e
        arrive s e (engRead s e (effAddr x w) (lsSize (lsOp w))))

/-- The head of a store buffer is a store to a register of cluster I/O. -/
def headIs (s : State) (e name : Nat) : Bool :=
  match (eng s e).buf.head? with
  | some x => decide (x.op = 0) && ioEntry x && ((ioReg (x.addr - 0x2000000)).elim false (fun r => decide (r.1 = name)))
  | none => false

/-- STORE_BUFFER_DRAIN: the head entry of an engine's store buffer reaches memory, when it can. -/
def execStoreBufferDrain (e : Fin 256) (s : State) : Host.Outcome State Fault Refusal := .next (drainHead s e)

/-- MB_DATA: a waiting load pops an entry of its mailbox; without one, the store at the head of the buffer pushes. -/
def execMbData (e : Fin 256) (s : State) : Host.Outcome State Fault Refusal :=
  .next (match (eng s e).stall, ioOfLoad s e with
    | .data, some (0, b) =>
      match nth (cluster s (clusterOf e)).mail b [] with
      | v :: rest => arrive (setCluster s (clusterOf e) (fun c => { c with mail := lmod c.mail b (fun _ => rest) })) e (leBytes 8 v)
      | [] => if headIs s e 0 then drainHead s e else s
    | _, _ => if headIs s e 0 then drainHead s e else s)

/-- Pops n bytes of a port's current record. Bytes past its end are free values. -/
def popPort (s : State) (e p n : Nat) : List Byte × State :=
  match (nth (eng s e).ports p {}).recs with
  | [] => (zeros n, s)
  | r :: rest =>
    let got := r.bytes.take n
    let left := r.bytes.drop n
    let (f, s) := if got.length < n then takeFree s else (0, s)
    let s := setEng s e (fun x => { x with
      bodyFlags := x.bodyFlags ||| r.flags,
      ports := lmod x.ports p (fun q =>
        if left.isEmpty then { q with recs := rest, midway := false }
        else { q with recs := { r with bytes := left } :: rest, midway := true }) })
    let q := nth (eng s e).ports p {}
    let s := if q.recs.isEmpty && q.stopped then pendLine s e 3 else s
    (got ++ leBytes (n - got.length) f, s)

/-- IP_DATA: a waiting load pops bytes of an input port's current record; zero once its source has stopped and the port
is empty. -/
def execIpData (e : Fin 256) (s : State) : Host.Outcome State Fault Refusal :=
  .next (match (eng s e).stall, ioOfLoad s e with
    | .data, some (2, p) =>
      let q := nth (eng s e).ports p {}
      if q.recs.isEmpty && !q.stopped then s
      else
        let (bs, s) := popPort s e p (lsSize (lsOp (bundleAt s e)))
        arrive s e bs
    | _, _ => s)

/-- OP_DATA: a store at the head of the buffer appends to the open product. -/
def execOpData (e : Fin 256) (s : State) : Host.Outcome State Fault Refusal :=
  .next (if headIs s e 5 then drainHead s e else s)

/-- OP_END: a store at the head of the buffer closes the product. -/
def execOpEnd (e : Fin 256) (s : State) : Host.Outcome State Fault Refusal :=
  .next (if headIs s e 7 then drainHead s e else s)

/-- SIGSEND: a store at the head of the buffer raises line 4 on engines of the cluster. -/
def execSigsend (e : Fin 256) (s : State) : Host.Outcome State Fault Refusal :=
  .next (if headIs s e 8 then drainHead s e else s)

/-- SIGNAL_TAKEN. -/
def execSignalTaken (e : Fin 256) (s : State) : Host.Outcome State Fault Refusal := .next (takeSignal s e)

end Sys2Proof.Machine
end

