-- ==== Sys2Proof/Machine/Dma.lean ====
section
/-! DEFINITION. The host link's endpoint and the DMA channels (R413 to R436). -/
namespace Sys2Proof.Machine

/-! ### Halts and releases -/

/-- A channel halts with a status (R427, R430): the descriptor in progress is not completed, a direct transfer ends. -/
def dmaHalt (s : State) (c st : Nat) : State :=
  let s := setDma s c (fun d =>
    { d with st := .halted, error := st, waiting := false, desc := none, direct := none, flushDue := false
             user := if d.direct.isSome then 0 else d.user })
  let s := if st = stCANCELLED then s else setSticky s 10
  fireVector (raise s 0x0E02 c (st + 65536 * ((dmaCh s c).completed % 65536))) (32 + c)

/-- A stream user is released (R423): the buffer in progress completes short, and the channel takes another user. -/
def dmaRelease (s : State) (c : Nat) : State :=
  setDma s c (fun d =>
    { d with user := 0
             data := if d.desc.isNone && d.data.isEmpty then d.data else d.data ++ [([], false, 0)] })

/-- The capture units' channels at a `START` (R423). -/
def dmaBindUnit (s : State) (u : Nat) : State := dmaBind s (par s 0x090C u) 1 u false

/-! ### Fetching (R425 to R427) -/

/-- The offset in the ring window that a descriptor address names. -/
def windowOffset (a : Nat) : Option Nat := if 2 ^ 63 ≤ a then some (a - 2 ^ 63) else none

/-- The fields of a descriptor (Table 14-6). -/
def descriptorOf (a : Nat) (bs : List Byte) : Descriptor :=
  { addr := a, buf := fld bs 0 8, len := fld bs 8 4, irq := bit (fld bs 12 2) 0, last := bit (fld bs 12 2) 1, next := fld bs 16 8 }

/-- The status that a descriptor's check halts with, in the order of R427. -/
def descriptorFault (bs : List Byte) : Option Nat :=
  let d := descriptorOf 0 bs
  if d.buf % 64 ≠ 0 || d.len % 64 ≠ 0 || (!d.last && decide (d.next % 32 ≠ 0)) then some stMISALIGNED
  else if d.len = 0 || 4 ≤ fld bs 12 2 || fld bs 14 2 ≠ 0 || 2 ^ 63 ≤ d.buf then some stBAD_PARAM
  else if !d.last && decide (2 ^ 63 + 0x3FFE0 < d.next) then some stBAD_PARAM
  else none

/-- A descriptor held by the host, with its DONE flag set, is waited for; another is checked and taken (R426, R427). -/
def takeDescriptor (s : State) (c a : Nat) (bs : List Byte) : State :=
  if bit (fld bs 30 1) 0 then setDma s c (fun d => { d with waiting := true })
  else match descriptorFault bs with
    | some st => dmaHalt s c st
    | none => setDma s c (fun d => { d with waiting := false, desc := some (descriptorOf a bs) })

/-- Fetches the next descriptor of a chain: from the ring window, or by a read of host memory, which Bus Master Enable
must allow (R418, R425). -/
def fetchNext (s : State) (c : Nat) (d : Fetched) : State :=
  match (dmaCh s c).next with
  | none => s
  | some a =>
    match windowOffset a with
    | some off =>
      if 0x3FFE0 < off then dmaHalt s c stBAD_PARAM else takeDescriptor s c a (memRead s.host.window off 32)
    | none =>
      if !s.host.bme then s else
      match d with
      | .halted _ => dmaHalt s c stHW_FAULT
      | .bytes bs => takeDescriptor s c a (padTo 32 bs)

/-- The channel may fetch its next descriptor. -/
def fetchOpen (s : State) (c : Nat) : Bool :=
  decide ((dmaCh s c).st = .running) && (dmaCh s c).desc.isNone && (dmaCh s c).next.isSome

def execDescriptorFetch (c : Fin 32) (d : Fetched) (s : State) : Host.Outcome State Fault Refusal :=
  .next (if fetchOpen s c && !(dmaCh s c).waiting then fetchNext s c d else s)

def execDescriptorRepoll (c : Fin 32) (d : Fetched) (s : State) : Host.Outcome State Fault Refusal :=
  .next (if fetchOpen s c && (dmaCh s c).waiting then fetchNext s c d else s)

/-- A kick makes a waiting channel fetch at once: a descriptor of the ring window now, one of host memory by the
`DESCRIPTOR_FETCH` that brings its bytes (R426). -/
def kick (s : State) (mask : Nat) : State :=
  (setBits 32 mask).foldl (fun s c =>
    if fetchOpen s c && (dmaCh s c).waiting then
      match (dmaCh s c).next.bind windowOffset with
      | some _ => fetchNext s c (.bytes [])
      | none => setDma s c (fun d => { d with waiting := false })
    else s) s

def execDmaKick (mask : BitVec 32) (s : State) : Host.Outcome State Fault Refusal := .next (kick s mask.toNat)

/-! ### Completion (R428 to R432) -/

/-- What a completion takes of the waiting items. -/
structure Taken where
  bytes : List Byte := []
  rest  : List (List Byte × Bool × Nat) := []
  ends  : Bool := false                          -- the last byte taken ends a record
  freed : List (Nat × Nat) := []                 -- capture unit + 1, bytes
  cut   : Bool := false                          -- a released user's data ended
  deriving DecidableEq, Repr

/-- Takes up to n bytes of the items, to the first release. -/
def takeItems : Nat → List (List Byte × Bool × Nat) → Taken
  | _, [] => {}
  | n, (bs, ends, tag) :: rest =>
    if bs.isEmpty then { rest, cut := true }
    else if n = 0 then { rest := (bs, ends, tag) :: rest }
    else if n < bs.length then
      { bytes := bs.take n, rest := (bs.drop n, ends, tag) :: rest, freed := [(tag, n)] }
    else
      let t := takeItems (n - bs.length) rest
      { bytes := bs ++ t.bytes, rest := t.rest, ends := if t.bytes.isEmpty then ends else t.ends
        freed := (tag, bs.length) :: t.freed, cut := t.cut }

/-- The bytes waiting up to the first release, and whether there is one. -/
def waitingBytes : List (List Byte × Bool × Nat) → Nat × Bool
  | [] => (0, false)
  | (bs, _, _) :: rest =>
    if bs.isEmpty then (0, true) else let (n, r) := waitingBytes rest; (bs.length + n, r)

/-- Confirmed bytes leave the wings of their capture unit (R264, R431). -/
def confirm (s : State) (freed : List (Nat × Nat)) : State :=
  freed.foldl (fun (s : State) f =>
    if f.1 = 0 then s
    else { s with caps := lmod s.caps (f.1 - 1) (fun c => { c with playedBytes := c.playedBytes - f.2 }) }) s

/-- Bytes of HBM as the DMA port reads them; what a poisoned line gives this port is open (Table 13-4). -/
def dmaReadHbm (s : State) (a n : Nat) : List Byte × State :=
  let s := (List.range (n / 64)).foldl (fun s i => portReads s (a / 64 + i)) s
  if hbmPoisoned s a n then
    ((List.range n).map (fun i =>
        if s.hbm.poisoned.contains ((a + i) / 64) then BitVec.ofNat 8 (Config.free (s.fresh + i)) else memGet s.hbm.mem (a + i)),
      { s with fresh := s.fresh + n })
  else (hbmRead s a n, s)

/-- Bytes that the DMA port writes to HBM. -/
def dmaWriteHbm (s : State) (a : Nat) (bs : List Byte) : State :=
  hbmWrite ((List.range (cdiv bs.length 64)).foldl (fun s i => portWrites s (a / 64 + i)) s) a bs

/-- Writes bytes to host memory, and reads the last four back (R430). -/
def dmaWriteHost (s : State) (a : Nat) (bs : List Byte) : State :=
  if bs.isEmpty then s
  else
    let full := padTo (64 * cdiv bs.length 64) bs
    emitHost (emitHost s (.dma a full)) (.dmaReadBack (a + full.length - 4))

/-- Bytes 24 to 31 of a completed descriptor (Table 14-6). -/
def doneBytes (done st completed : Nat) (short record : Bool) : List Byte :=
  leBytes 4 done ++ leBytes 2 st ++ leBytes 1 (1 + 2 * b2n short + 4 * b2n record) ++ leBytes 1 completed

/-- Writes bytes 24 to 31 of a descriptor where it lies. -/
def writeDone (s : State) (a : Nat) (bs : List Byte) : State :=
  match windowOffset a with
  | some off => { s with host := { s.host with window := memWrite s.host.window (off + 24) bs } }
  | none => emitHost s (.dmaDone (a + 24) bs)

/-- A stream descriptor can complete: full, or short under R429. -/
def streamDue (s : State) (c : Nat) (dsc : Descriptor) : Bool :=
  let d := dmaCh s c
  let (n, released) := waitingBytes d.data
  decide (dsc.len ≤ n) || released || d.flushDue || decide (d.st = .stopping)

/-- Completes a stream descriptor (R428 to R432). -/
def completeStream (s : State) (c : Nat) (dsc : Descriptor) : State :=
  let t := takeItems dsc.len (dmaCh s c).data
  let s := dmaWriteHost s dsc.buf t.bytes
  let n := ((dmaCh s c).completed + 1) % 2 ^ 32
  let s := writeDone s dsc.addr
    (doneBytes t.bytes.length stOK n (decide (t.bytes.length < dsc.len)) (t.ends && !t.bytes.isEmpty))
  let s := setDma s c (fun d =>
    { d with completed := n, desc := none, data := t.rest, flushDue := false, bytes := satU 64 (d.bytes + t.bytes.length)
             next := if dsc.last then none else some dsc.next
             user := if t.cut && (d.user = 2 || d.user = 3) then 0 else d.user
             st := if d.st = .stopping then (if d.direct.isSome then .stopping else .stopped)
                   else if dsc.last then .ended else d.st })
  let s := confirm s t.freed
  if dsc.irq || dsc.last then fireVector s (32 + c) else s

/-- Completes a direct transfer (R436): it counts as one descriptor, and the channel goes on as before it. -/
def completeDirect (s : State) (c : Nat) (x : Direct) : State :=
  let s := if x.toHost then let (bs, s) := dmaReadHbm s x.hbm x.len; dmaWriteHost s x.host bs else s
  let s := setDma s c (fun d =>
    { d with completed := (d.completed + 1) % 2 ^ 32, direct := none, user := 0, bytes := satU 64 (d.bytes + x.len)
             st := if d.st = .stopping then (if d.desc.isSome then .stopping else .stopped) else x.before })
  fireVector s (32 + c)

def execDescriptorComplete (c : Fin 32) (s : State) : Host.Outcome State Fault Refusal :=
  let d := dmaCh s c
  let moving := s.host.bme && (decide (d.st = .running) || decide (d.st = .stopping))
  match d.direct, d.desc with
  | some x, _ => .next (if moving then completeDirect s c x else s)
  | none, some dsc => .next (if moving && streamDue s c dsc then completeStream s c dsc else s)
  | none, none => .next s

/-- A buffer whose first byte was written `dma.flush_ms` ago completes short (R429). -/
def execDmaFlushTimeout (c : Fin 32) (s : State) : Host.Outcome State Fault Refusal :=
  let d := dmaCh s c
  let held := decide (0 < (waitingBytes d.data).1)
  .next (if d.st = .running && d.desc.isSome && held then setDma s c (fun d => { d with flushDue := true }) else s)

/-- A fetch or a read-back gets no completion (R427, R430): the data writes of the buffer stand, the descriptor does not
complete. -/
def execCompletionTimeout (c : Fin 32) (s : State) : Host.Outcome State Fault Refusal :=
  let d := dmaCh s c
  let moving := s.host.bme && (decide (d.st = .running) || decide (d.st = .stopping))
  if !moving then .next s else
  match d.direct, d.desc with
  | some x, _ =>
    .next (if x.toHost then let (bs, s) := dmaReadHbm s x.hbm x.len; dmaHalt (dmaWriteHost s x.host bs) c stHW_FAULT
           else dmaHalt s c stHW_FAULT)
  | none, some dsc =>
    let t := takeItems dsc.len d.data
    .next (if streamDue s c dsc && !t.bytes.isEmpty then dmaHalt (dmaWriteHost s dsc.buf t.bytes) c stHW_FAULT else s)
  | none, none =>
    .next (match d.next with
      | some a => if (windowOffset a).isNone && decide (d.st = .running) then dmaHalt s c stHW_FAULT else s
      | none => s)

/-! ### Commands -/

def specDmaChain : CmdSpec :=
  { opcode := 0x0E10, inst := .below 32, len := fun p => decide (p.length = 16)
    badState := fun s c _ => (dmaCh s c).st = .running || (dmaCh s c).st = .stopping
    badParam := fun _ _ p _ => !zeroBytes p 8 8 }

def runDmaChain (s : State) (_ : Packet) (c : Nat) (p : List Byte) (_ : Option Nat) : Ran :=
  if fld p 0 8 % 32 ≠ 0 then (stMISALIGNED, [], s)
  else (stOK, [], setDma s c (fun d =>
    { d with st := .running, error := 0, completed := 0, waiting := false, next := some (fld p 0 8), desc := none, flushDue := false }))

def execDmaChain (p : Packet) (s : State) : Host.Outcome State Fault Refusal := .next (runPacket specDmaChain runDmaChain p s)

def specDmaStop : CmdSpec := { opcode := 0x0E11, inst := .below 32 }

def runDmaStop (s : State) (_ : Packet) (c : Nat) (_ : List Byte) (_ : Option Nat) : Ran :=
  (stOK, [], setDma s c (fun d =>
    if d.st ≠ .running then d
    else if d.desc.isSome || d.direct.isSome then { d with st := .stopping }
    else { d with st := .stopped, waiting := false }))

def execDmaStop (p : Packet) (s : State) : Host.Outcome State Fault Refusal := .next (runPacket specDmaStop runDmaStop p s)

/-- The host window (R435): its base and its size in bytes. -/
def windowSize (s : State) : Nat := par s 0x0E01 0 * 2 ^ 30
def windowBase (s : State) : Nat := hbmSize s.variant - windowSize s

def specDmaCopy : CmdSpec :=
  { opcode := 0x0E12, inst := .below 32, modes := [.idle, .analyse, .record, .service], len := fun p => decide (p.length = 24)
    badParam := fun s _ p _ =>
      decide (fld p 8 8 < windowBase s) || decide (hbmSize s.variant < fld p 8 8 + fld p 16 4) || decide (2 ≤ fld p 20 1) ||
      !zeroBytes p 21 3
    held := fun s c _ => busyIf (dmaBound s c) }

/-- The part of a halted transfer that was written, and its bytes, are open (R434). -/
def partWritten (s : State) (a len : Nat) : State :=
  let (k, s) := takeFree s
  let n := 64 * (k % (len / 64 + 1))
  let s := dmaWriteHbm s a ((List.range n).map (fun i => BitVec.ofNat 8 (Config.free (s.fresh + i))))
  { s with fresh := s.fresh + n }

def runDmaCopy (data : Fetched) (s : State) (_ : Packet) (c : Nat) (p : List Byte) (_ : Option Nat) : Ran :=
  let host := fld p 0 8
  let hbm := fld p 8 8
  let len := fld p 16 4
  let toHost := bit (fld p 20 1) 0
  if host % 64 ≠ 0 || hbm % 64 ≠ 0 || len % 64 ≠ 0 then (stMISALIGNED, [], s)
  else
    let s := dmaBind s c 5 0 (!toHost)
    let s := setDma s c (fun d => { d with st := .running, direct := some { host, hbm, len, toHost, before := d.st } })
    (stOK, [],
      if toHost then s
      else match data with
        | .bytes bs => dmaWriteHbm s hbm (padTo len bs)
        | .halted st => dmaHalt (partWritten s hbm len) c (failStatus st))

def execDmaCopy (p : Packet) (data : Fetched) (s : State) : Host.Outcome State Fault Refusal :=
  .next (runPacket specDmaCopy (runDmaCopy data) p s)

/-! ### The endpoint (R415 to R418, R422) -/

/-- Bus Master Enable: while it is 0 every request is held, and setting it sends what was held (R418). -/
def execBusMasterEnable (v : Bool) (s : State) : Host.Outcome State Fault Refusal :=
  .next (if v then { s with out := s.out ++ s.host.parked, host := { s.host with bme := true, parked := [] } }
    else { s with host := { s.host with bme := false } })

/-- IRQ_HOLDOFF has passed since a vector fired: it fires for an advance held meanwhile (Table 14-5). -/
def execIrqHoldoffExpiry (vector : Fin 2) (s : State) : Host.Outcome State Fault Refusal :=
  let v : Nat := vector
  if !nth s.host.holding v false then .next s
  else
    let due := nth s.host.due v false
    let s := { s with host := { s.host with
      holding := lmod s.host.holding v (fun _ => false), due := lmod s.host.due v (fun _ => false) } }
    .next (if due then fireHeld s v else s)

/-- A link as LINK_STATUS can report it (Tables 14-1 and 14-2). -/
def linkLegal (gen width : Nat) : Bool :=
  decide (4 ≤ gen) && decide (gen ≤ 6) && [1, 4, 8, 16].contains width

/-- Detail of `HOST_LINK` (Table 14-11). -/
def hostLinkDetail (s : State) (up : Bool) (cause : Nat) : Nat :=
  b2n up + 2 * s.host.gen + 32 * s.host.width + 1024 * cause

def setLink (s : State) (up : Bool) (gen width : Nat) (flit : Bool) : State :=
  { s with host := { s.host with up, gen, width, flit } }

def execHostLinkTrained (gen width : Nat) (flit : Bool) (s : State) : Host.Outcome State Fault Refusal :=
  if s.host.up || !linkLegal gen width || !s.md.powered || s.md.rstLow || s.md.mode = .dormant then .next s
  else
    let s := setLink s true gen width flit
    .next (raise s 0x0E01 0 (hostLinkDetail s true 0))

/-- The link retrains at another rate or width without going down (Table 14-3). -/
def execHostLinkRetrain (gen width : Nat) (flit : Bool) (s : State) : Host.Outcome State Fault Refusal :=
  if !s.host.up || !linkLegal gen width then .next s
  else
    let same := decide (s.host.gen = gen) && decide (s.host.width = width)
    let s := setLink s true gen width flit
    .next (if same then s else raise (setSticky s 9) 0x0E01 0 (hostLinkDetail s true 0))

/-- Disables a ring's replies: a reply held for room is discarded (R53). -/
def rplDisable (s : State) : State :=
  let s := { s with ring := { s.ring with rplEn := false } }
  if s.ring.held.isSome then undefinedOpcodes (dropReply { s with ring := { s.ring with held := none, rplStall := false } }) else s

/-- What ends the host link's state (R416). -/
def linkEnds (s : State) (cause : Nat) : State :=
  let s := rplDisable { s with ring := { s.ring with cmdEn := false, evtEn := false } }
  let s := { s with host := { s.host with masked := List.range 64, bme := false, parked := [], holding := [false, false]
                                          due := [false, false] } }
  let s := (List.range 32).foldl (fun s c => if (dmaCh s c).st = .halted then s else dmaHalt s c stCANCELLED) s
  let s := setSticky s 9
  let s := { s with host := { s.host with downs := satU 32 (s.host.downs + 1) } }
  let s := if cause = 2 then s else setLink s false 0 0 false
  raise s 0x0E01 0 (hostLinkDetail s false cause)

def execHostLinkReset (cause : Fin 3) (s : State) : Host.Outcome State Fault Refusal :=
  .next (if s.host.up || (decide (cause.val = 1) && s.md.powered && !s.md.rstLow) then linkEnds s cause else s)

end Sys2Proof.Machine
end

