-- ==== Sys2Proof/Machine/EngineCmds.lean ====
section
/-! DEFINITION. What judges a change against capacity (R22), and the commands of the engines: loading, starting,
stopping, signalling, resuming, and the gating of clusters (R353, R373 to R386). -/
namespace Sys2Proof.Machine

/-! ### Judging a change (R22) -/

/-- The state that the changes accepted so far will leave at an ordinal of a channel, as far as demand depends on it (R22):
those of the channel's own domain up to the ordinal, and all of the other domains, whose ordinals it is not compared with.
DEDUCED, see assumption 21. -/
def futureState (s : State) (c ord : Nat) : State :=
  (s.pend.filter (fun x => decide (x.chan ≠ c) || decide (x.ord ≤ ord))).foldl (fun s x =>
    match x.act with
    | .params l => l.foldl (fun s e => setPar s e.1 e.2.1 e.2.2) s
    | .aeStart p => (setBits 256 (leNat p)).foldl (fun s e => setEng s e (fun x => { x with st := .running })) s
    | _ => s) s

/-- Posts `HEADROOM_LOW` for the resources that a change leaves below target. -/
def raiseLow (s : State) (l : List (Nat × Int)) (ord : Option (Nat × Nat)) : State :=
  l.foldl (fun s x => raise s 0x0211 x.1 (uns 32 x.2) ord) s

/-- A stamp of a channel where it runs. -/
def ordIf (s : State) (c n : Nat) : Option (Nat × Nat) := if running s c then some (c, n) else none

/-! ### Program images (Table 12-4, R374, R379) -/

/-- The parts of an image: its bundles, data, regions, mailbox and port bindings. -/
def imgU (b : List Byte) : Nat := fld b 14 2
def imgV (b : List Byte) : Nat := fld b 16 4
def imgG (b : List Byte) : Nat := fld b 24 1
def imgK (b : List Byte) : Nat := fld b 25 1
def imgJ (b : List Byte) : Nat := fld b 26 1
def imgRegionsAt (b : List Byte) : Nat := 64 + 8 * imgU b + imgV b

def imgRegions (b : List Byte) : List Region :=
  (List.range (imgG b)).map (fun i =>
    let o := imgRegionsAt b + 32 * i
    { base := fld b o 8, len := fld b (o + 8) 8, space := fld b (o + 16) 1, right := fld b (o + 17) 1 })

def imgMail (b : List Byte) : List (Nat × Nat) :=
  (List.range (imgK b)).map (fun i => let o := imgRegionsAt b + 32 * imgG b + 4 * i; (fld b o 1, fld b (o + 1) 1))

def imgPorts (b : List Byte) : List (Nat × Nat) :=
  (List.range (imgJ b)).map (fun i =>
    let o := imgRegionsAt b + 32 * imgG b + 4 * imgK b + 4 * i
    (fld b o 1, fld b (o + 2) 2))

/-- The program of an image. -/
def imgProgram (b : List Byte) : Program :=
  { cls := fld b 6 1, determinate := bit (fld b 7 1) 0, hd := fld b 8 4, entry := fld b 12 2, rate := fld b 20 4
    regions := imgRegions b, mailboxes := imgMail b, ports := imgPorts b }

/-- The check of an image: CRC-32C with its own four bytes as zero. -/
def imgCheck (b : List Byte) : Bool := decide (crc32c (b.take 60 ++ zeros 4 ++ b.drop 64) = fld b 60 4)

/-- A source of a port: a zoom, a stream, the auxiliary converter or a time-interval input (R367). -/
def portSource (c : Nat) : Bool :=
  (decide (0x0200 ≤ c) && decide (c < 0x0220)) || (decide (0x0300 ≤ c) && decide (c < 0x0310)) || decide (c = 0x0400) ||
  (decide (0x0500 ≤ c) && decide (c < 0x0520))

/-- A source of a port that the variant does not fit. -/
def portAbsent (s : State) (c : Nat) : Bool := decide (c / 256 = 3) && !fitted s.variant 0x03 (c % 256)

/-- A region outside the address map, misaligned, or of a bad right (R379). -/
def regionBad (s : State) (determinate : Bool) (r : Region) : Bool :=
  let map := if r.space = 0 then (0x1000000, 0x1400000) else (0x2000000000, 0x2000000000 + hbmSize s.variant)
  decide (1 < r.space) || decide (3 < r.right) || decide (r.base % 64 ≠ 0) || decide (r.len % 64 ≠ 0) ||
  decide (r.base < map.1) || decide (map.2 < r.base + r.len) || (decide (r.right = 3) && determinate)

/-- R379: an image that fails step 8. -/
def programBad (s : State) (b : List Byte) : Bool :=
  decide (b.length < 64) || decide (fld b 0 4 ≠ 0x53545247) || decide (fld b 4 2 ≠ 1) || decide (2 < fld b 6 1) ||
  decide (1 < fld b 7 1) || decide (fld b 8 4 < 8) || decide (4194400 < fld b 8 4) || decide (4095 < fld b 12 2) ||
  decide (imgU b = 0) || decide (4096 < imgU b) || decide (imgV b % 8 ≠ 0) || decide (131072 < imgV b) ||
  decide (800000 < fld b 20 4) || decide (8 < imgG b) || decide (16 < imgK b) || decide (4 < imgJ b) ||
  !zeroBytes b 27 33 || decide (b.length ≠ imgRegionsAt b + 32 * imgG b + 4 * imgK b + 4 * imgJ b) || !imgCheck b ||
  (imgRegions b).any (regionBad s (bit (fld b 7 1) 0)) ||
  (List.range (imgG b)).any (fun i => !zeroBytes b (imgRegionsAt b + 32 * i + 18) 14) ||
  (imgMail b).any (fun m => decide (15 < m.1) || decide (1 < m.2)) ||
  (List.range (imgK b)).any (fun i => !zeroBytes b (imgRegionsAt b + 32 * imgG b + 4 * i + 2) 2) ||
  (imgPorts b).any (fun p => decide (3 < p.1) || !portSource p.2) ||
  (List.range (imgJ b)).any (fun i => !zeroBytes b (imgRegionsAt b + 32 * imgG b + 4 * imgK b + 4 * i + 1) 1)

/-- Two regions share an address. -/
def overlap (a b : Region) : Bool :=
  decide (a.space = b.space) && decide (a.base < b.base + b.len) && decide (b.base < a.base + a.len)

/-- Table 12-3: overlapping regions conflict unless both carry the same right, and it is not RW. -/
def regionsConflict (a b : Region) : Bool := overlap a b && !(decide (a.right = b.right) && decide (a.right ≠ 1))

/-- The loaded engines outside a list. -/
def othersLoaded (s : State) (es : List Nat) : List (Nat × Engine) :=
  s.engines.filter (fun x => x.2.loaded && !es.contains x.1)

/-- R365, R374: an image that conflicts with the loaded programs, or binds a mailbox a second time. Of the engines of one load
each is a loaded program to the others. DEDUCED, see assumption 67. -/
def imageConflicts (s : State) (es : List Nat) (p : Program) : Bool :=
  (othersLoaded s es).any (fun x =>
    p.regions.any (fun r => x.2.prog.regions.any (regionsConflict r)) ||
    (es.any (fun e => decide (clusterOf e = clusterOf x.1)) && p.mailboxes.any x.2.prog.mailboxes.contains)) ||
  (decide (2 ≤ es.length) && p.regions.any (fun r => p.regions.any (regionsConflict r))) ||
  (!p.mailboxes.isEmpty &&
    (List.range 16).any (fun c => decide (2 ≤ (es.filter (fun e => decide (clusterOf e = c))).length))) ||
  p.mailboxes.any (fun m => decide (2 ≤ p.mailboxes.count m))

/-- Loads an image into an engine (R378). -/
def loadEngine (s : State) (e : Nat) (b : List Byte) : State :=
  let u := imgU b
  setEng s e (fun x =>
    { loaded := true, prog := imgProgram b
      imem := (List.range u).foldl (fun t i => tput t i (fld b (64 + 8 * i) 8)) []
      loc := memWrite [] 0 ((b.drop (64 + 8 * u)).take (imgV b))
      epoch := x.epoch, physical := x.physical, substNext := x.substNext, storesLost := x.storesLost, watermark := x.watermark
      pauseShed := decide (2 ≤ s.md.level) && decide (1 ≤ fld b 6 1) })

/-! ### AE_LOAD -/

/-- The engines that a bitmap of the payload names. -/
def engineMap (p : List Byte) (off : Nat) : List Nat := setBits 256 (fld p off 32)

/-- Modes of the engine commands (Table 12-8); in WATCH the engines of CL0 alone (R98). -/
def engineModes : List Mode := [.analyse, .record, .watch, .service]

def watchBad (s : State) (es : List Nat) : Bool := decide (s.md.mode = .watch) && es.any (fun e => decide (16 ≤ e))

def specAeLoad : CmdSpec :=
  { opcode := 0x0C30, modes := .idle :: engineModes, len := fun p => decide (p.length = 48)
    absent := fun s _ p => (engineMap p 16).any (fun e => !fitted s.variant 0x06 e)
    badState := fun s _ p => watchBad s (engineMap p 16) || (engineMap p 16).any (fun e =>
      !((eng s e).st = .stopped || (eng s e).st = .halted || (eng s e).st = .faulted))
    badParam := fun _ _ p _ => decide (fld p 0 8 % 64 ≠ 0) || decide (31 < fld p 12 1) || !zeroBytes p 13 3
    held := fun s _ p => busyIf (dmaBound s (fld p 12 1)) }

def runAeLoad (image : Fetched) (s : State) (_ : Packet) (_ : Nat) (p : List Byte) (_ : Option Nat) : Ran :=
  match image with
  | .halted st => (failStatus st, [], dmaHalt s (fld p 12 1) (failStatus st))
  | .bytes bs =>
    let b := padTo (fld p 8 4) bs
    let es := engineMap p 16
    if programBad s b then (stBAD_PARAM, [], s)
    else if (imgPorts b).any (fun x => portAbsent s x.2) then (stUNIT_ABSENT, [], s)
    else if imageConflicts s es (imgProgram b) then (stBAD_STATE, [], s)
    else
      let s := es.foldl (fun s e => loadEngine s e b) s
      (stOK, [], ((List.range 16).filter (fun c => es.any (fun e => decide (clusterOf e = c)))).foldl advanceEpoch s)

def execAeLoad (p : Packet) (image : Fetched) (s : State) : Host.Outcome State Fault Refusal :=
  .next (runPacket specAeLoad (runAeLoad image) p s)

/-! ### AE_START, AE_STOP, AE_SIGNAL (R380) -/

/-- Starts an engine at its entry bundle: the registers at their reset values (R325), the counts of the program from zero,
and every port bound at an ordinal. -/
def startEngine (s : State) (e bind : Nat) : State :=
  setEng s e (fun x =>
    { st := .running, loaded := true, prog := x.prog, imem := x.imem, loc := x.loc, pc := x.prog.entry, epoch := x.epoch
      physical := x.physical, substNext := x.substNext, storesLost := x.storesLost, watermark := x.watermark
      pauseShed := x.pauseShed || (decide (2 ≤ s.md.level) && decide (1 ≤ x.prog.cls)), pauseRoom := x.pauseRoom, ports := List.replicate 4 { bind } })

/-- An engine that can start: loaded, stopped, and not one that must be loaded again (R351). -/
def canStart (x : Engine) : Bool :=
  x.loaded && (x.st = .stopped || x.st = .halted || (x.st = .faulted && !x.nested))

def runningNow (es : List Nat) (s : State) : State :=
  es.foldl (fun s e => setEng s e (fun x => { x with st := .running })) s

/-- The states before and after an `AE_START`, as R22 judges them. -/
def aeStartJudged (s : State) (p : List Byte) (at_ : Option Nat) : State × State :=
  let a := match at_ with
    | some n => futureState s (cueChan s) n
    | none => s
  (a, runningNow (engineMap p 0) a)

def specAeStart : CmdSpec :=
  { opcode := 0x0C31, atOk := true, modes := engineModes, len := fun p => decide (p.length = 32)
    absent := fun s _ p => (engineMap p 0).any (fun e => !fitted s.variant 0x06 e)
    badState := fun s _ p => watchBad s (engineMap p 0) || (engineMap p 0).any (fun e => !canStart (eng s e))
    noSpace := fun s _ p at_ => let j := aeStartJudged s p at_; overCapacity j.1 j.2 false }

def runAeStart (s : State) (p : Packet) (_ : Nat) (pl : List Byte) (at_ : Option Nat) : Ran :=
  let j := aeStartJudged s pl at_
  let low := lowAfter j.1 j.2 false
  let c := cueChan s
  match at_ with
  | some n => (stOK, [], raiseLow (schedule s p 0x0C31 c n (.aeStart pl)) low (some (c, n)))
  | none =>
    let n := if running s c then appliedOrd s c else 0
    let s' := (engineMap pl 0).foldl (fun s e => startEngine s e n) s
    (stOK, if running s c then appliedReply n else [], raiseLow s' low (ordIf s c n))

def execAeStart (p : Packet) (s : State) : Host.Outcome State Fault Refusal := .next (runPacket specAeStart runAeStart p s)

/-- A scheduled start comes due; an engine that can no longer start stays as it is. -/
def aeStartDue (s : State) (pl : List Byte) (n : Nat) : State :=
  (engineMap pl 0).foldl (fun s e => if canStart (eng s e) then startEngine s e n else s) s

def specAeStop : CmdSpec :=
  { opcode := 0x0C32, modes := engineModes, len := fun p => decide (p.length = 32)
    absent := fun s _ p => (engineMap p 0).any (fun e => !fitted s.variant 0x06 e)
    badState := fun s _ p => watchBad s (engineMap p 0) }

/-- Stops an engine as `AE_STOP` does; one that is out of service stays so. -/
def aeStopOne (s : State) (e : Nat) : State :=
  if (eng s e).st = .offline || (eng s e).st = .gated then s
  else setEng (stopEngine s e .stopped) e (fun x => { x with saved := false, pauseGate := false })

def runAeStop (s : State) (_ : Packet) (_ : Nat) (p : List Byte) (_ : Option Nat) : Ran :=
  (stOK, [], (engineMap p 0).foldl aeStopOne s)

def execAeStop (p : Packet) (s : State) : Host.Outcome State Fault Refusal := .next (runPacket specAeStop runAeStop p s)

def specAeSignal : CmdSpec := { specAeStop with opcode := 0x0C33 }

def runAeSignal (s : State) (_ : Packet) (_ : Nat) (p : List Byte) (_ : Option Nat) : Ran :=
  (stOK, [], (engineMap p 0).foldl (fun s e => pendLine s e 0) s)

def execAeSignal (p : Packet) (s : State) : Host.Outcome State Fault Refusal := .next (runPacket specAeSignal runAeSignal p s)

/-! ### AE_FAULT_READ, AE_RESUME (R353) -/

def specAeFaultRead : CmdSpec := { opcode := 0x0C20, inst := .unit 0x06 }

def runAeFaultRead (s : State) (_ : Packet) (e : Nat) (_ : List Byte) (_ : Option Nat) : Ran := (stOK, faultBytes s e, s)

def execAeFaultRead (p : Packet) (s : State) : Host.Outcome State Fault Refusal :=
  .next (runPacket specAeFaultRead runAeFaultRead p s)

def specAeResume : CmdSpec :=
  { opcode := 0x0C21, inst := .unit 0x06, modes := engineModes, len := fun p => decide (p.length = 8)
    badState := fun s e _ => watchBad s [e] || (eng s e).st ≠ .faulted || (eng s e).nested
    badParam := fun s e p _ => decide (2 ≤ fld p 0 1) || !zeroBytes p 1 7 ||
      (bit (fld p 0 1) 0 && decide ((eng s e).fault.element = 255)) }

def runAeResume (s : State) (_ : Packet) (e : Nat) (p : List Byte) (_ : Option Nat) : Ran :=
  (stOK, [], setEng s e (fun x =>
    let x := if bit (fld p 0 1) 0 then { x with gmask := x.gmask ||| (1 <<< x.fault.element) } else x
    { restart x with st := .running, inexc := false }))

def execAeResume (p : Packet) (s : State) : Host.Outcome State Fault Refusal := .next (runPacket specAeResume runAeResume p s)

/-! ### Pauses, gating and substitution (R381 to R386) -/

/-- Sets or clears a pause of an engine; a paused program without any pause left resumes. -/
def setPause (s : State) (e : Nat) (f : Engine → Engine) : State :=
  setEng s e (fun x =>
    let x := f x
    if x.st = .paused && !(x.pauseGate || x.pauseShed || x.pauseRoom) then { x with st := .running } else x)

/-- The pause of classes B and C at shed level 2 or higher (R359, R381). -/
def shedPause (s : State) (on : Bool) : State :=
  (s.engines.filter (fun x => x.2.loaded && decide (1 ≤ x.2.prog.cls))).foldl (fun s x =>
    setPause s x.1 (fun e => { e with pauseShed := on })) s

/-- Headroom of a cluster on resource 4 is below zero. -/
def roomShort (s : State) (c : Nat) : Bool := !qLe (qNat (clDemand s c)) (clCap s c)

/-- The pause of class C on resource-4 headroom, at each gauge reading, one second apart (Table 12-6). -/
def roomPause (s : State) (c : Nat) : State :=
  let short := roomShort s c
  let n := if short then 0 else (cluster s c).okSeconds + 1
  let s := setCluster s c (fun k => { k with okSeconds := n })
  (listed s c).foldl (fun s e =>
    if (eng s e).prog.cls = 2 then
      if short then setPause s e (fun x => { x with pauseRoom := true })
      else if 1 ≤ n then setPause s e (fun x => { x with pauseRoom := false }) else s
    else s) s

/-- An engine that has a place in its program. -/
def engActive (x : Engine) : Bool := x.st = .running || x.st = .waiting || x.st = .paused

/-- On entry to WATCH or DORMANT, each running engine of a cluster to be gated is asked to pause; one that is paused
already is saved at once (R384). -/
def gateAsk (s : State) (c : Nat) : State :=
  (listed s c).foldl (fun s e =>
    match (eng s e).st with
    | .running | .waiting => setEng s e (fun x => { x with pauseGate := true })
    | .paused => setEng (drainAll s e) e (fun x => { x with pauseGate := true, saved := true })
    | _ => s) s

/-- An engine that reached no SAFEPT in time: stopped as by `AE_STOP`, not saved, and GATED (R384). -/
def gateLate (s : State) (e : Nat) : State :=
  setEng (stopEngine s e .gated) e (fun x => { x with pauseGate := false, saved := false })

/-- A cluster loses its power: engines not yet paused are stopped, its cache is written back. -/
def gateCluster (s : State) (c : Nat) : State :=
  let s := (listed s c).foldl (fun s e =>
    if (eng s e).st = .running || (eng s e).st = .waiting then gateLate s e else s) s
  setCluster s c (fun k => { k with gated := true, cache := [] })

/-- A cluster is powered again (R385): a saved engine goes on where the epochs match, and is cleared where they differ. -/
def ungateCluster (s : State) (c : Nat) : State :=
  if !(cluster s c).gated then s
  else
    let s := setCluster s c (fun k => { k with gated := false })
    (listed s c).foldl (fun s e =>
      let x := eng s e
      if x.saved then
        if x.epoch = (cluster s c).epoch then
          setPause s e (fun x => { x with saved := false, pauseGate := false })
        else
          let s := setEng s e (fun x =>
            { st := .stopped, epoch := (cluster s c).epoch, physical := x.physical, substNext := x.substNext
              storesLost := x.storesLost, watermark := x.watermark })
          raise s 0x0C02 e x.epoch
      else if x.st = .gated then
        setEng s e (fun x =>
          { st := .stopped, epoch := (cluster s c).epoch, physical := x.physical, substNext := x.substNext
            storesLost := x.storesLost, watermark := x.watermark })
      else s) s

/-- SAFEPT_DEADLINE: a pause for gating or substitution was not taken in time (R384, R386). -/
def execSafeptDeadline (e : Fin 256) (s : State) : Host.Outcome State Fault Refusal :=
  let x := eng s e
  .next (if x.st = .running || x.st = .waiting then
      if x.pauseGate then gateLate s e
      else if x.pauseSubst then setEng s e (fun x => { x with pauseSubst := false, substNext := true })
      else s
    else s)

/-- Orders a substitution (R386): a running engine at its next SAFEPT, any other at once. -/
def orderSubstitute (s : State) (e : Nat) : State :=
  if (eng s e).st = .running || (eng s e).st = .waiting then setEng s e (fun x => { x with pauseSubst := true })
  else substitute s e

end Sys2Proof.Machine
end

