-- ==== Sys2Proof/Machine/Hbm.lean ====
section
/-! DEFINITION. The HBM3 controller: facets, requests, pages, ECC and poison, the scrubber, windows, self-refresh (R390 to
R412). -/
namespace Sys2Proof.Machine

/-! ### Geometry and facets (R390 to R393) -/

/-- The default facet masks (Table 13-2). -/
def facetDefaults (v : Variant) : List Nat :=
  if v = .f then
    [0x0100200400, 0x0200400800, 0x0400801000, 0x0001002000, 0x0002004000, 0x0004008000, 0x0008010000, 0x0010020000,
     0x0020040000, 0x0040080000, 0x0080100000]
  else
    [0x0040100400, 0, 0x0080200800, 0x0100401000, 0x0200802000, 0x0001004000, 0x0002008000, 0x0004010000,
     0x0008020000, 0x0010040000, 0x0020080000]

/-- The masks in force at and above the re-hash boundary: `hbm.facet`. -/
def facetMasks (s : State) : List Nat := if s.hbm.facets.isEmpty then facetDefaults s.variant else s.hbm.facets

/-- Size of a block: 2 MiB, or 1 MiB on two stacks (R392). -/
def blockSize (v : Variant) : Nat := if v = .f then 2 ^ 21 else 2 ^ 20

/-- Stacks fitted. -/
def stackCount (v : Variant) : Nat := if v = .f then 4 else 2

/-- The masks that an address uses: below the boundary of a live re-hash, the new ones (R403). -/
def facetsAt (s : State) (a : Nat) : List Nat :=
  match liveOp s 0x0D40 with
  | some o => if a < o.done * blockSize s.variant then s.hbm.newFacets else facetMasks s
  | none => facetMasks s

/-- Parity of the low n bits. -/
def parity (n v : Nat) : Nat := popcount n v % 2

/-- Facet i of an address. -/
def facet (masks : List Nat) (a i : Nat) : Nat := parity 37 (a &&& nth masks i 0)

/-- Where an address lies: pseudo-channel over all stacks, and its bank index and row (Table 13-1). -/
def hbmBank (s : State) (a : Nat) : Nat :=
  let f := facet (facetsAt s a) a
  let sid := if s.variant = .f then bits a 36 35 else bits a 35 34
  (f 0 + 2 * f 1) * 1536 + (f 2 + 2 * f 3 + 4 * f 4 + 8 * f 5) * 96 + f 6 * 48 + sid * 16 + (f 7 + 2 * f 8) * 4 + f 9 + 2 * f 10

def hbmRow (s : State) (a : Nat) : Nat := if s.variant = .f then bits a 34 21 else bits a 33 20

/-- The pseudo-channel of a bank: 48 banks each. -/
def pcOfBank (b : Nat) : Nat := b / 48

/-- The stack of an address. -/
def stackOf (s : State) (a : Nat) : Nat := hbmBank s a / 1536

/-- The rank over GF(2) of masks restricted to some bits. -/
def gfRank : List Nat → List Nat → Nat
  | [], _ => 0
  | b :: bs, rows =>
    match rows.find? (fun r => bit r b) with
    | none => gfRank bs rows
    | some p => 1 + gfRank bs ((rows.erase p).map (fun r => if bit r b then r ^^^ p else r))

/-- A valid facet set (R392). -/
def facetsValid (v : Variant) (m : List Nat) : Bool :=
  let top := if v = .f then 34 else 33
  let home := if v = .f then (List.range 11).map (· + 10) else (List.range 10).map (· + 10)
  let rows := if v = .f then m else m.eraseIdx 1
  m.all (fun x => decide (x < 2 ^ (top + 1)) && decide (x % 64 = 0)) && (v = .f || decide (nth m 1 0 = 0)) &&
  decide (gfRank home rows = home.length)

/-! ### Errors (R289, R405 to R407) -/

def setStack (s : State) (k : Nat) (f : HbmStack → HbmStack) : State :=
  { s with hbm := { s.hbm with hbmStacks := lmod s.hbm.hbmStacks k f } }

def stack (s : State) (k : Nat) : HbmStack := nth s.hbm.hbmStacks k {}

/-- A corrected single-bit error. -/
def hbmCe (s : State) (line : Nat) : State :=
  let k := stackOf s (64 * line)
  raiseLatched (setStack s k (fun x => { x with ce := satU 64 (x.ce + 1), ceSeen := true })) 0x0D01 k line

/-- The block of a unit's played data that a poisoned ring line hits is open; it is written with 64 bytes as zero, and its
POISON flag set (R289). -/
def ringPoison (s : State) : State :=
  let (a, s) := takeFree s
  let (b, s) := takeFree s
  let (o, s) := takeFree s
  let u := a % 17
  if u = 16 then s
  else
    let es := s.store.extents.filter (fun e => decide (e.unit = u) && (decide (e.state ≤ 1) || decide (e.state = 6)))
    let blocks := es.flatMap (fun e => (e.blocks.zipIdx).map (fun x => (e.serial, x.2)))
    let c := nth s.caps u {}
    let tail := (nth c.recs 0 { mode := 0, first := 0 }).tail.length
    let n := blocks.length + b2n (0 < tail) + c.ring.length
    let j := if n = 0 then 0 else b % n
    let blank := fun (l : List Byte) (at_ : Nat) => l.take at_ ++ zeros (Nat.min 64 (l.length - at_)) ++ l.drop (at_ + 64)
    if n = 0 then s
    else if j < blocks.length then
      let (serial, i) := nth blocks j (0, 0)
      { s with store := { s.store with extents := s.store.extents.map (fun e =>
          if e.serial = serial then
            { e with blocks := lmod e.blocks i (fun x => { x with poison := true, data := blank x.data (64 * (o % 64)) }) }
          else e) } }
    else if j < blocks.length + b2n (0 < tail) then
      let at_ := o % tail / 64 * 64
      { s with caps := lmod s.caps u (fun c => { c with recs := lmod c.recs 0 (fun r =>
          { r with tail := blank r.tail at_, poison := r.poison ++ [r.payload - r.tail.length + at_] }) }) }
    else
      let k := j - blocks.length - b2n (0 < tail)
      { s with caps := lmod s.caps u (fun c => { c with ring := lmod c.ring k (fun (i : CapItem) =>
          { i with flags := i.flags ||| 16, body := blank i.body (o % (i.body.length / 64 + 1) * 64) }) }) }

/-- An uncorrectable error poisons its line (R405, R408): counted, logged, posted with the port that found it. -/
def hbmUe (s : State) (line port : Nat) : State :=
  let k := stackOf s (64 * line)
  let s := poisonLine s line
  let s := setStack s k (fun x => { x with ue := satU 64 (x.ue + 1), poisonSeen := true })
  let s := logResolved s 0x0D02 0x0B k line
  let s := raise s 0x0D02 port line
  ringPoison s

/-- A partial write to a poisoned line is discarded and logged with its port (R407). -/
def hbmDiscard (s : State) (line port : Nat) : State :=
  let k := stackOf s (64 * line)
  logResolved (setStack s k (fun x => { x with ue := satU 64 (x.ue + 1) })) 0x1184 0x15 port line

/-- What a read of a line finds (R405); a line already poisoned counts nothing new. -/
def lineCheck (s : State) (line port : Nat) (ecc : Ecc) : State :=
  if s.hbm.poisoned.contains line then s
  else match ecc with
    | .clean => s
    | .single => hbmCe s line
    | .uncorrectable => hbmUe s line port

/-! ### Requests (R394 to R399) -/

/-- The floor of a port (Table 13-3). -/
def portFloor (p : Nat) : Nat := if p < 4 || (33 ≤ p && p < 36) then 1 else 0

/-- Urgency by the share of the target that has elapsed (R394). -/
def ageUrgency (r : HbmReq) : Nat :=
  let u := if 4 * r.age < 2 * r.target then 0 else if 4 * r.age < 3 * r.target then 1 else if r.age < r.target then 2 else 3
  if r.port = 38 then Nat.min u 1 else Nat.max u (portFloor r.port)

/-- A request stays within one line of the fitted HBM and belongs to a pseudo-channel (R390). -/
def reqOk (s : State) (pc : Nat) (r : HbmReq) : Bool :=
  decide (r.addr < hbmSize s.variant) && decide (1 ≤ r.len) && decide (r.addr % 64 + r.len ≤ 64) && decide (r.port < 40) &&
  fitted s.variant 0x15 r.port && decide (pcOfBank (hbmBank s r.addr) = pc)

/-- The urgency of the request at place i: a write that a later read of its line waits for takes the read's (R398). -/
def reqUrgency (q : List HbmReq) (i : Nat) : Nat :=
  match q[i]? with
  | none => 0
  | some r =>
    if r.write then
      ((q.drop (i + 1)).filter (fun x => !x.write && decide (x.addr / 64 = r.addr / 64))).foldl
        (fun a x => Nat.max a (ageUrgency x)) (ageUrgency r)
    else ageUrgency r

/-- Requests of one line are performed in their order of arrival (R398). -/
def reqFirst (q : List HbmReq) (i : Nat) : Bool :=
  match q[i]? with
  | none => false
  | some r => (q.take i).all (fun x => decide (x.addr / 64 ≠ r.addr / 64))

/-- A request hits the open row of its bank. -/
def rowHit (s : State) (r : HbmReq) : Bool :=
  decide ((tgetD s.hbm.banks (hbmBank s r.addr) {}).openRow = some (hbmRow s r.addr))

/-- The criteria of R395, as a number that the best request has highest; the place breaks ties by arrival. -/
def reqRank (s : State) (q : List HbmReq) (i : Nat) : Nat :=
  match q[i]? with
  | none => 0
  | some r => 1 + (reqUrgency q i * 2 + b2n (rowHit s r)) * 64 + (63 - r.port)

/-- The request of a list of places that ranks highest, the earliest among equals. -/
def bestReq (s : State) (q : List HbmReq) (l : List Nat) : Option Nat :=
  l.foldl (fun acc i => match acc with
    | none => some i
    | some j => if reqRank s q j < reqRank s q i then some i else some j) none

/-- The request that a pseudo-channel issues next (R395): every fourth slot is offered first to urgent capture writes. -/
def nextReq (s : State) (pc : Nat) : Option Nat :=
  let q := tgetD s.hbm.queues pc []
  let open_ := (List.range q.length).filter (fun i => reqFirst q i)
  let cwp := open_.filter (fun i => decide ((nth (q.map (·.port)) i 99) < 4) && decide (2 ≤ reqUrgency q i))
  if tgetD s.hbm.slots pc 0 % 4 = 0 && !cwp.isEmpty then bestReq s q cwp else bestReq s q open_

/-- A queue takes what arrives, in order: a full queue of 64 reads or 64 writes holds a request at its port, with the requests
of that port behind it (R399). The target is taken on arrival (R394). -/
def queueIn (s : State) : List HbmReq → List HbmReq × List HbmReq → List HbmReq × List HbmReq
  | [], x => x
  | r :: l, (q, h) =>
    if decide (64 ≤ (q.filter (fun x => x.write = r.write)).length) || h.any (fun x => decide (x.port = r.port)) then
      queueIn s l (q, h ++ [r])
    else queueIn s l (q ++ [{ r with target := par s 0x0D02 r.port, data := padTo r.len r.data }], h)

/-- Requests reach a pseudo-channel, held ones first, ports of one cycle in ascending order (R398). -/
def hbmArrive (s : State) (pc : Nat) (l : List HbmReq) (elapsed : Nat) : State :=
  let q := (tgetD s.hbm.queues pc []).map (fun r => { r with age := r.age + elapsed })
  let sorted := (List.range 40).flatMap (fun p => l.filter (fun r => decide (r.port = p) && reqOk s pc r))
  let (q, h) := queueIn s (tgetD s.hbm.held pc [] ++ sorted) (q, [])
  { s with hbm := { s.hbm with
      queues := if q.isEmpty then tdel s.hbm.queues pc else tput s.hbm.queues pc q
      held := if h.isEmpty then tdel s.hbm.held pc else tput s.hbm.held pc h } }

/-- The page policy of an access (R397). -/
def pageAccess (s : State) (q : List HbmReq) (a : Nat) : State :=
  let b := hbmBank s a
  let row := hbmRow s a
  let same := q.any (fun r => decide (hbmBank s r.addr = b) && decide (hbmRow s r.addr = row))
  { s with hbm := { s.hbm with banks := tmod s.hbm.banks b {} (fun k =>
      let pred := match k.lastRow with
        | none => k.pred
        | some l => if l = row then Nat.min 3 (k.pred + 1) else k.pred - 1
      { k with pred, lastRow := some row, count := k.count + 1, openRow := if same || 2 ≤ pred then some row else none }) } }

/-- What poison does to the unit behind a port (Table 13-4). The other ports' effects are told where they are read: rings
(`ringPoison`), engines, DMA, planes and the pair link. -/
def portPoison (s : State) (port : Nat) : State :=
  if 29 ≤ port && port < 33 then duPoison s (port - 29)
  else if port = 36 then stagePoison s
  else if port = 39 then { s with hbm := { s.hbm with smpPoison := true } }
  else s

/-- The request's data is transferred (R396, R398, R405 to R407). -/
def perform (s : State) (r : HbmReq) (ecc : Ecc) : State :=
  let line := r.addr / 64
  let cached := decide (12 ≤ r.port) && decide (r.port < 28)
  let s := if cached then s else if r.write then portWrites s line else portReads s line
  let s := { s with hbm := { s.hbm with bytes := tmod s.hbm.bytes r.port 0 (fun n => (n + r.len) % 2 ^ 64) } }
  let s := if r.target < r.age then
      let s := { s with hbm := { s.hbm with late := tmod s.hbm.late r.port 0 (fun n => satU 64 (n + 1)) } }
      raiseLatched s 0x0D04 r.port (tgetD s.hbm.late r.port 0)
    else s
  if r.write then
    let words := decide (r.addr % 8 = 0) && decide (r.len % 8 = 0)
    let s := if words then s else lineCheck s line r.port ecc
    if s.hbm.poisoned.contains line && !decide (r.len = 64) then hbmDiscard s line r.port
    else hbmWrite s r.addr r.data
  else
    let s := lineCheck s line r.port ecc
    let bad := s.hbm.poisoned.contains line
    emit (if bad then portPoison s r.port else s) (.hbmData r.port (if bad then [] else hbmRead s r.addr r.len) bad)

/-- HBM_REQUEST: requests arrive, and the pseudo-channel issues the one chosen. A stack in self-refresh, or on its way in
or out, serves nothing (R412), and in DORMANT no port issues requests (R411). -/
def execHbmRequest (pc : Fin 128) (arrivals : List HbmReq) (elapsedNs : Nat) (ecc : Ecc) (s : State) :
    Host.Outcome State Fault Refusal :=
  if s.md.mode = .dormant || s.md.mode = .boot || stackCount s.variant * 32 ≤ pc.val then .next s
  else
    let s := hbmArrive s pc arrivals elapsedNs
    if (stack s (pc.val / 32)).sr ≠ .active then .next s
    else match nextReq s pc with
      | none => .next s
      | some i =>
        let q := tgetD s.hbm.queues pc []
        let rest := q.eraseIdx i
        let s := { s with hbm := { s.hbm with
          queues := if rest.isEmpty then tdel s.hbm.queues pc else tput s.hbm.queues pc rest
          slots := tput s.hbm.slots pc ((tgetD s.hbm.slots pc 0 + 1) % 4) } }
        match q[i]? with
        | none => .next s
        | some r => .next (perform (pageAccess s rest r.addr) r ecc)

/-- A row left open in a bank closes. -/
def closeRow (s : State) (bank : Nat) : State :=
  match tget? s.hbm.banks bank with
  | none => s
  | some k => { s with hbm := { s.hbm with banks := tput s.hbm.banks bank { k with openRow := none } } }

def execRowIdleClose (bank : Nat) (s : State) : Host.Outcome State Fault Refusal := .next (closeRow s bank)

def execBankRefresh (bank : Nat) (s : State) : Host.Outcome State Fault Refusal := .next (closeRow s bank)

/-! ### Scrubbing (R408, R409) -/

/-- The port of the oldest queued request that waits for a line. -/
def awaiting (s : State) (line : Nat) : Nat :=
  (((s.hbm.queues.flatMap (·.2)).find? (fun r => decide (r.addr / 64 = line))).map (·.port)).getD 38

/-- SCRUB_LINE: the scrubber reads the next line. It pauses on a stack in self-refresh and while `HBM_REHASH` or
`SCRUB_FULL` is live. A corrected line is written back, or the write-back is discarded where a write overtook it: the line
then holds that write, and either way it is correct. -/
def execScrubLine (ecc : Ecc) (awaited _overtaken : Bool) (s : State) : Host.Outcome State Fault Refusal :=
  let line := s.hbm.scrubPos / 64
  let paused := (liveOp s 0x0D40).isSome || (liveOp s 0x0D41).isSome || s.md.mode = .boot ||
    decide ((stack s (stackOf s (64 * line))).sr ≠ .active)
  if paused then .next s
  else
    let s := lineCheck s line (if awaited then awaiting s line else 38) ecc
    .next { s with hbm := { s.hbm with scrubPos := (64 * line + 64) % hbmSize s.variant } }

/-- A block scrubbed by `SCRUB_FULL` counts as scrubbed in the background pass (R409). -/
def scrubBlock (s : State) (k : Nat) : State :=
  let z := blockSize s.variant
  if s.hbm.scrubPos / z = k then
    { s with hbm := { s.hbm with scrubPos := ((k + 1) * z) % hbmSize s.variant } }
  else s

/-! ### Windows (R400) -/

/-- BANK_IMBALANCE: a window of 1 s ends. A window without any access has no ratio: the value it leaves is open. -/
def execBankImbalance (s : State) : Host.Outcome State Fault Refusal :=
  let n := 1536 * stackCount s.variant
  let counts := s.hbm.banks.filter (fun b => decide (b.1 < n))
  let total := counts.foldl (fun a b => a + b.2.count) 0
  let top := counts.foldl (fun (a : Nat × Nat) b => if a.2 < b.2.count then (b.1, b.2.count) else a) (0, 0)
  let (f, s) := if total = 0 then takeFree s else (0, s)
  let ratio := if total = 0 then f % 2 ^ 32 else satU 32 (100 * top.2 * n / total)
  let quiet := decide (total < 2 ^ 20) || s.hbm.hbmStacks.any (·.srInWindow)
  let run := if quiet then s.hbm.run else if 4 * total < top.2 * n then s.hbm.run + 1 else 0
  let s := { s with hbm := { s.hbm with
    imbalance := ratio, hotBank := top.1, run := if 60 ≤ run then 0 else run
    banks := s.hbm.banks.map (fun b => (b.1, { b.2 with count := 0 }))
    hbmStacks := s.hbm.hbmStacks.map (fun k => { k with srInWindow := decide (k.sr ≠ .active) }) } }
  .next (if 60 ≤ run then raiseLatched s 0x0D03 top.1 ratio else s)

/-! ### Training and self-refresh (R410 to R412) -/

def execEyeRecentre (k : Fin 4) (s : State) : Host.Outcome State Fault Refusal :=
  .next (if (stack s k).trained && (stack s k).sr = .active then setStack s k (fun x => { x with centred := x.centred + 1 }) else s)

/-- Requests wait for a stack. -/
def stackBusy (s : State) (k : Nat) : Bool := (s.hbm.queues ++ s.hbm.held).any (fun q => decide (q.1 / 32 = k) && !q.2.isEmpty)

/-- A stack leaves self-refresh: its predictors read 2 again (R397). -/
def srLeave (s : State) (k : Nat) : State :=
  let s := setStack s k (fun x => { x with sr := .active, srExits := (x.srExits + 1) % 2 ^ 64 })
  { s with hbm := { s.hbm with banks := s.hbm.banks.map (fun b =>
      if b.1 / 1536 = k then (b.1, { b.2 with pred := 2 }) else b) } }

/-- A stack is in self-refresh: its rows are closed, and the window is quiet (R397, R400). -/
def srEnter (s : State) (k : Nat) (sr : SrState) : State :=
  let s := setStack s k (fun x => { x with sr, srInWindow := true })
  { s with hbm := { s.hbm with banks := s.hbm.banks.map (fun b =>
      if b.1 / 1536 = k then (b.1, { b.2 with openRow := none }) else b) } }

/-- Self-refresh with the mode: every stack is in it from entry to DORMANT until wake, and none outside WATCH and DORMANT
(R411); a stack that was entering completes its entry and exits (R412). -/
def srFollow (s : State) (t : Mode) : State :=
  (List.range (stackCount s.variant)).foldl (fun s k =>
    if t = .dormant then (if (stack s k).sr = .selfRefresh then s else srEnter s k .selfRefresh)
    else if t = .watch || decide ((stack s k).sr = .active) then s
    else srLeave s k) s

/-- SELF_REFRESH_ENTRY: in WATCH, an idle stack begins to enter; the next one for the same stack completes the entry. A
request that arrives meanwhile does not abort it (R412). -/
def execSelfRefreshEntry (k : Fin 4) (s : State) : Host.Outcome State Fault Refusal :=
  .next (if s.md.mode ≠ .watch || stackCount s.variant ≤ k.val then s
    else match (stack s k).sr with
      | .active =>
        if stackBusy s k then s
        else srEnter s k .entering
      | .entering => setStack s k (fun x => { x with sr := .selfRefresh })
      | _ => s)

/-- SELF_REFRESH_EXIT: a request waits for the stack, or the mode leaves WATCH: entry completes, the stack exits; the next
one for the same stack ends the exit. -/
def execSelfRefreshExit (k : Fin 4) (s : State) : Host.Outcome State Fault Refusal :=
  .next (if s.md.mode ≠ .watch || !(stackBusy s k || s.md.transit.isSome) then s
    else match (stack s k).sr with
      | .entering | .selfRefresh => setStack s k (fun x => { x with sr := .exiting })
      | .exiting => srLeave s k
      | .active => s)

/-! ### Commands (R402, R409) -/

/-- The masks of a payload. -/
def maskList (p : List Byte) : List Nat := (List.range 11).map (fun i => fld p (8 * i) 8)

def specHbmRehash : CmdSpec :=
  { opcode := 0x0D40, modes := [.idle, .analyse, .record, .service], starts := true, len := fun p => decide (p.length = 96)
    badParam := fun s _ p _ => !facetsValid s.variant (maskList p) || !zeroBytes p 88 8
    held := fun s _ _ => heldBy s [0x0D40, 0x0D41] }

def runHbmRehash (s : State) (p : Packet) (_ : Nat) (pl : List Byte) (_ : Option Nat) : Ran :=
  let (h, s) := startOp s 0x0D40 0 p.tag.toNat 49152 {}
  (stACCEPTED, leBytes 4 h, { s with hbm := { s.hbm with newFacets := maskList pl } })

def execHbmRehash (p : Packet) (s : State) : Host.Outcome State Fault Refusal := .next (runPacket specHbmRehash runHbmRehash p s)

def specScrubFull : CmdSpec :=
  { opcode := 0x0D41, modes := [.idle, .analyse, .record, .service], starts := true
    held := fun s _ _ => heldBy s [0x0D40, 0x0D41] }

def runScrubFull (s : State) (p : Packet) (_ : Nat) (_ : List Byte) (_ : Option Nat) : Ran :=
  let (h, s) := startOp s 0x0D41 0 p.tag.toNat 49152 {}
  (stACCEPTED, leBytes 4 h, s)

def execScrubFull (p : Packet) (s : State) : Host.Outcome State Fault Refusal := .next (runPacket specScrubFull runScrubFull p s)

end Sys2Proof.Machine
end

