-- ==== Sys2Proof/Machine/Rules.lean ====
section
/-! DEFINITION. What a configuration must meet before it can run (R173, R194, R205, R214, R223, R227, R250, R257,
R263, R265, R298, R309), and what the start of a source starts with it. -/
namespace Sys2Proof.Machine

/-! ### Zooms -/

/-- What makes an enabled zoom unrunnable (R173): the status that refuses it, or 0. -/
def zoomFault (s : State) (z : Nat) : Nat :=
  if par s 0x0601 z ≠ 1 then 0
  else if paired s && (decide (par s 0x0602 z = 0x0101) || (decide (par s 0x0602 z = 0x0100) && decide (z % 2 = 1))) then stBAD_STATE
  else if zoomHeld s z then stBAD_STATE
  else if zoomRsBroken s z then stBAD_PARAM
  else 0

/-! ### Sources -/

/-- A source that no block may take now: CH1 while paired, or the held partner of a double-width zoom (R194, R257). -/
def sourceBarred (s : State) (code : Nat) : Bool :=
  (paired s && decide (code = 0x0101)) || (isZoomCode code && zoomHeld s (code % 256))

/-- The unit that a source code names is not fitted. -/
def sourceAbsent (s : State) (code : Nat) : Bool :=
  let i := code % 256
  match code / 256 with
  | 1 => !fitted s.variant 0x01 i
  | 2 => !fitted s.variant 0x02 i
  | 3 => !fitted s.variant 0x03 i
  | 6 => !fitted s.variant 0x06 i
  | _ => false

/-- A source code that names something (Table 1-7). -/
def sourceKnown (code : Nat) : Bool :=
  let i := code % 256
  match code / 256 with
  | 1 => decide (i < 4)
  | 2 => decide (i < 32)
  | 3 => decide (i < 16)
  | 4 => decide (i = 0)
  | 5 => decide (i < 32)
  | 6 => true
  | _ => false

/-- The source runs now. -/
def sourceRuns (s : State) (code : Nat) : Bool :=
  let i := code % 256
  match code / 256 with
  | 1 => (chan s i).running
  | 2 => (nth s.zooms i {}).running
  | 3 => (stream s i).running
  | 4 => s.aux.running
  | 5 => tiuOn s && decide (par s 0x1001 i = 1)
  | 6 => engActive (eng s i)
  | _ => false

/-! ### Streams -/

/-- A comparator of a stream that R227 refuses. -/
def maskBroken (s : State) (m : Nat) : Bool :=
  let n := par s 0x0820 m % 256
  decide (xfN s n < par s 0x0822 m + par s 0x0823 m) || (decide (par s 0x0821 m = 1) && decide (par s 0x070C n = 0))

/-- R214: a long stream whose source is too fast. -/
def longBroken (s : State) (n : Nat) : Bool := xfLong s n && !qLe (srcRate s (xfSrc s n)) (78125000, 1)

/-- What keeps an enabled stream from starting, with `BAD_STATE` (R194, R205, R214, R227). -/
def streamFault (s : State) (n : Nat) : Bool :=
  streamSet s n && (sourceBarred s (xfSrc s n) || longBroken s n ||
    (decide (par s 0x0706 n = 7) && userWindowBad s n) ||
    (List.range 16).any (fun m => decide (par s 0x0820 m = 0x0300 + n) && maskBroken s m))

/-- The staging that an enabled stream needs (R214). -/
def stagingOf (s : State) (n : Nat) : Nat :=
  if !streamSet s n then 0
  else if xfRa s n then 12 * par s 0x0722 n * xfN s n
  else if xfLong s n then 16 * xfN s n else 0

/-- The enabled streams need more staging than the region holds (R214). -/
def stagingFull (s : State) : Bool :=
  decide ((if s.variant = .f then 2 ^ 32 else 2 ^ 31) < (List.range 16).foldl (fun a n => a + stagingOf s n) 0)

/-! ### Density units -/

/-- What keeps a unit from starting, with `BAD_STATE` (R298, R304). -/
def duFault (s : State) (u : Nat) : Bool :=
  match duSet s u with
  | none => false
  | some n => xfRa s n || decide (xfN s n < par s 0x0B04 u + par s 0x0B05 u * par s 0x0B02 u) ||
      (decide (par s 0x0B0E u = 2) && userMapBad s u)

/-- No decimation suffices (R309). -/
def duSlow (s : State) (u : Nat) : Bool :=
  match duSet s u with
  | none => false
  | some n => (duDecimation s u n).isNone

/-! ### Capture units -/

/-- What keeps an enabled unit from starting, with `BAD_STATE` (R257, R265). -/
def capFault (s : State) (u : Nat) : Bool :=
  decide (par s 0x0901 u = 1) && (sourceBarred s (capSrc s u) || decide (capPreMax s (sheetImages s) u < par s 0x0904 u))

/-- An enabled unit with the host destination. -/
def capHost (s : State) (u : Nat) : Bool := capSet s u && decide (par s 0x090B u = 1)

/-- Two enabled units of the host destination name one DMA channel (R423). -/
def dmaClash (s : State) : Bool :=
  let l := ((List.range 16).filter (capHost s)).map (fun u => par s 0x090C u)
  decide (l.eraseDups.length ≠ l.length)

/-- The rings of the enabled units exceed the wings (R263). -/
def wingsFull (s : State) : Bool :=
  decide (par s 0x0912 0 < wingsInUse s)

/-! ### Starting what a source feeds (R113, R218, R258) -/

/-- The enabled streams of a source that has started. -/
def startStreams (s : State) (code ord : Nat) : State :=
  (List.range 16).foldl (fun s n =>
    if streamSet s n && decide (xfSrc s n = code) && !(stream s n).running && decide (s.md.level < 4) then startStream s n ord else s) s

/-- A zoom starts as a new stream at an ordinal, with what it feeds. -/
def startZoom (s : State) (z ord : Nat) : State :=
  let s := portStop (zoomStart s z ord) (0x0200 + z) false
  startStreams (startCaps s (0x0200 + z) ord) (0x0200 + z) ord

/-- A zoom can run on its channel: enabled, not held, in service, not shed. -/
def zoomMay (s : State) (z : Nat) : Bool :=
  decide (par s 0x0601 z = 1) && !zoomHeld s z && !isOffline s 0x02 z &&
  decide (s.md.level < (if z / 2 * 2 < 4 then 3 else 2))

/-- The enabled zooms of a channel that has started; one that shedding keeps off waits. -/
def startZooms (s : State) (c ord : Nat) : State :=
  (List.range 32).foldl (fun s z =>
    if decide (par s 0x0601 z = 1) && decide (zoomChan s z = c) && !(nth s.zooms z {}).running then
      (if zoomMay s z then startZoom s z ord
       else if zoomHeld s z || isOffline s 0x02 z then s else setZoom s z (fun x => { x with shed := true }))
    else s) s

/-! ### Turns of a zoom (R190) -/

/-- The next turn of a zoom begins, with the samples kept for it. -/
def zoomTurn (s : State) (z : Nat) : State :=
  let zm := nth s.zooms z {}
  match zm.later with
  | [] => s
  | t :: rest =>
    let s := setZoom s z (fun m => { m with running := true, stopAt := some 0, cfg := t.cfg })
    let s := startZoom s z t.at_
    let s := setZoom s z (fun m => { m with
      changes := t.changes, stopAt := t.stop, later := rest, wait := if rest.isEmpty then [] else zm.wait
      waitGaps := if rest.isEmpty then [] else zm.waitGaps })
    let s := zm.waitGaps.foldl (fun s m => zoomMarker s z m) s
    zm.wait.foldl (fun s x =>
      if decide (0x0100 + zoomChan s z = x.1) && decide ((nth s.zooms z {}).next ≤ x.2.1) then zoomTake s z x.2.1 x.2.2 else s) s

/-- A turn of a zoom ends with what it has computed, and the next begins. -/
def turnOver (s : State) (z : Nat) : State :=
  zoomTurn (zoomEnd (zoomDrain s z) z false ((nth s.zooms z {}).stopAt.getD 0)) z

/-- Every turn of a zoom but the last ends. -/
def lastTurnOf (s : State) (z : Nat) : State :=
  (List.range (nth s.zooms z {}).later.length).foldl (fun s _ => turnOver s z) s

/-- A zoom stops with the outputs that it has computed. -/
def zoomHalt (s : State) (z : Nat) (shed : Bool) (ord : Nat) : State := zoomEnd (zoomDrain (lastTurnOf s z) z) z shed ord

/-- ZOOM_BLOCK: a zoom completes a block of 64 outputs, or its last one after a disable. -/
def execZoomBlock (z : Fin 32) (s : State) : Host.Outcome State Fault Refusal :=
  let zm := nth s.zooms z {}
  .next (if zoomBlocked s z then s
    else if 64 ≤ zm.outs.length then zoomDeliver s z 64
    else if zm.running && zoomDone s z then turnOver s z
    else s)

end Sys2Proof.Machine
end

