-- ==== Sys2Proof/Machine/Running.lean ====
section
/-! DEFINITION. START and STOP (R22, R48, R144, R563), as commands and as the parts of a transition that perform them
(R94, R103). -/
namespace Sys2Proof.Machine

/-! ### START -/

/-- The channels that a `START` starts. -/
def startSet (s : State) : List Nat := (List.range 4).filter (chanOn s true)

/-- What refuses a `START` with `BAD_STATE`, beyond the modes (R91, R115, R150, R194, R223, R227, R257, R298, R423, R563). -/
def startBarred (s : State) : Bool :=
  anyRunning s || decide (3 ≤ s.md.level) || decide (s.clk.source = 0) ||
  (List.range 32).any (fun z => decide (zoomFault s z = stBAD_STATE)) ||
  (List.range 16).any (streamFault s) || (List.range 4).any (duFault s) || (List.range 16).any (capFault s) || dmaClash s ||
  (List.range 16).any (maskBroken s) || s.cue.sheets.any (fun sh => !sh.image.isEmpty && domainBroken s (startSet s) sh.image)

/-- What refuses it with `BAD_PARAM` (R173, R250). -/
def startBad (s : State) : Bool :=
  (List.range 32).any (fun z => decide (zoomFault s z = stBAD_PARAM)) || latencyBroken s (sheetImages s)

/-- What refuses it with `BUSY`: a live calibration, or a DMA channel bound to a command (R129, R423). -/
def startBusy (s : State) : Bool :=
  (liveOp s 0x0440).isSome || ((List.range 16).filter (capHost s)).any (fun u => dmaBound s (par s 0x090C u))

/-- What refuses it with `NO_SPACE` (R22, R214, R309). -/
def startFull (s : State) : Bool := stagingFull s || (List.range 4).any (duSlow s) || overCapacity s s true

/-- A channel at its start (R28, R127, R141, R142, R144): its clock output stands at the phase set (R157, R159). DESIGN CHOICE,
see assumption 65: a loss of signal declared, or found and not yet posted, ends with the new start, without `CONV_LOS`. -/
def startChannel (s : State) (c instant : Nat) : State :=
  setChan s c (fun ch =>
    { running := true, startAt := instant
      coef := ch.loaded.getD ch.coef, loaded := none, calValid := ch.calValid || ch.loadedValid, loadedValid := false
      fsInForce := par s 0x0403 (domainOf s c), clkPhase := phaseSet s c
      losThr := parI s 0x0409 c, ovrSeen := ch.ovrSeen })

/-- The reductions in force end (R486); each is reported restored. -/
def dropReductions (s : State) : State :=
  let l := s.health.reductions
  let s := { s with health := { s.health with reductions := [] } }
  l.foldl (fun s r => raise s 0x1101 r.code r.order (some (cueChan s, 0))) s

/-- Every channel of a list starts at one instant, `at_` in 2^-32 s; what it feeds is at rest. -/
def startConverters (s : State) (cs : List Nat) (at_ : Nat) : State :=
  let s := cs.foldl (fun s c => startChannel s c at_) (programPlls (dropReductions s))
  { s with
    tiu := { s.tiu with ticks := none, anchor := none, anchorB := none
                        inputs := s.tiu.inputs.map (fun i => { i with issued := 0, gaps := 0, dropping := none }) }
    aux := { s.aux with buf := {} }
    engines := s.engines.map (fun x => (x.1, { x.2 with watermark := 0 }))
    pair := { s.pair with nextX := 0, checkChan := 0 } }

/-- Delivers the ticks of the timers below an ordinal (R230). -/
def timersTo (s : State) (top : Nat) : State :=
  if top = 0 then s else
  (List.range 8).foldl (fun s t =>
    let period := par s 0x080C t
    if period = 0 then s else
    let k0 := nth s.cue.timerNext t 0
    let o := par s 0x080B t
    let k1 := if o < top then (top - 1 - o) / period + 1 else 0
    { s with cue := { s.cue with
        timerNext := lmod s.cue.timerNext t (Nat.max k1)
        arriving := s.cue.arriving ++ (List.range (k1 - k0)).map (fun i =>
          { kind := 0x09, inst := t, ord := o + (k0 + i) * period, tests := [2] }) } }) s

/-- The ticks below an ordinal are past: none of them is delivered. -/
def timersFrom (s : State) (n : Nat) : State :=
  let t := timersTo s n
  { t with cue := { t.cue with arriving := s.cue.arriving } }

/-- Everything that the channels feed and their configuration names starts at an ordinal. -/
def startBlocks (s : State) (cs : List Nat) (n : Nat) : State :=
  let s := gatesStart (capClearCounts s)
  let s := { s with
    gates := s.gates.map (fun g => { g with nextFrom := n })
    engines := s.engines.map (fun x => (x.1, { x.2 with ports := x.2.ports.map (fun p => { p with bind := n }) })) }
  let s := timersFrom (cuesStart s n) n
  let s := (cs.filter (fun c => !(paired s && decide (c = 1)))).foldl (fun s c =>
    startZooms (startStreams (startCaps s (0x0100 + c) n) (0x0100 + c) n) c n) s
  let s := if cs.isEmpty then s else
    ((List.range 16).filter (fun u => capSet s u && decide (4 ≤ capKind s u) && !(cap s u).running)).foldl
      (fun s u => capStartUnit s u n) s
  ((List.range 16).filter (fun u => (cap s u).running && capHost s u)).foldl dmaBindUnit s

/-- What a `START` does once it is accepted: every channel of a list starts at one instant, and with it everything that
its configuration names; `at_` is the start instant in 2^-32 s. -/
def startAll (s : State) (cs : List Nat) (at_ : Nat) : State :=
  let low := lowAfter s s true
  raiseLow (reshare (startBlocks (startConverters s cs at_) cs 0)) low (some (cueChan s, 0))

def specStart : CmdSpec :=
  { opcode := 0x0005, modes := [.analyse, .record]
    badState := fun s _ _ => startBarred s
    badParam := fun s _ _ _ => startBad s
    held := fun s _ _ => match heldBy s [0x0A42] with
      | some x => some x
      | none => busyIf (startBusy s)
    noSpace := fun s _ _ _ => startFull s }

def runStart (s : State) (_ : Packet) (_ : Nat) (_ : List Byte) (_ : Option Nat) : Ran :=
  let (at_, s) := takeFree s
  (stOK, [], startAll s (startSet s) at_)

/-- START (R563). The start instant is a free value (R28). -/
def execStart (p : Packet) (s : State) : Host.Outcome State Fault Refusal := .next (runPacket specStart runStart p s)

/-! ### STOP -/

/-- The ordinal at which each channel stops: that of the cue channel, and what the others have reached. -/
def stopOrdOf (s : State) (n c : Nat) : Nat := if domainOf s c = cueChan s then n else ordNext s (domainOf s c)

/-- The last conditioned output of every running channel leaves its conditioner. -/
def condDrain (s : State) : State :=
  (List.range 4).foldl (fun s c =>
    if (chan s c).running && decide (domainOf s c = c) then
      match conditionLast s c with
      | some (k, y) => feedCond s c k y
      | none => s
    else s) s

/-- Resolves every item below the stop ordinal of the cue channel (R48). -/
def resolveBelow (s : State) (top : Nat) : State :=
  let s := rehearseAll (timersTo (tiuDrainAll s) top) top
  playTo (top + 1) top s

/-- What a stop leaves: no stream stopped by shedding, no pending change, no alignment in progress; a device that is
no UNDERSTUDY drives its outputs again. -/
def stopRest (s : State) (was : List Nat) : State :=
  let s := (List.range 16).foldl (fun s k => setStream s k (fun st => { st with shedStop := false })) s
  let s := (List.range 32).foldl (fun s z => setZoom s z (fun x => { x with shed := false })) s
  let s := discardPend s (fun _ => true)
  let s := { s with cued := [], unplayed := [], md := { s.md with lastStarted := was, stopping := none }, cue := { s.cue with arriving := [] }
                    pair := { s.pair with aligning := none, started := false, e := none } }
  autoReturn (reshare (if s.pair.role = 2 then s else releaseOutputs s))

/-- The parts of a stop that follow the channels: what they fed drains and ends, rehearsed work below the stop ordinal
is played and the rest struck, pending changes are discarded (R37, R48, R220, R260). `drain` is false where unplayed
work is struck whole (R106). -/
def stopAll (s : State) (n : Nat) (resolve : Bool) : State :=
  let running_ := (List.range 4).filter (fun c => (chan s c).running)
  let zs := (List.range 32).filter (fun z => (nth s.zooms z {}).running)
  let s := if resolve then zs.foldl (fun s z => zoomDrain (lastTurnOf s z) z) (condDrain s) else s
  let s := if resolve then (List.range 16).foldl (fun s k => streamHalt s k false) s
    else (List.range 16).foldl (fun s k => streamEnd (setStream s k (fun st => { st with trace := [], later := [] })) k false) s
  let s := if resolve then resolveBelow s n else { s with cue := { s.cue with arriving := [] } }
  let ords := (List.range 4).map (stopOrdOf s n)
  let s := running_.foldl (fun s c => setChan s c (fun ch => { ch with running := false, stopOrd := if resolve then some (nth ords c 0) else none, stopAt := none, buf := { ch.buf with dropping := none, ended := [] } })) s
  let s := zs.foldl (fun s z => zoomEnd s z false (nth ords (zoomChan s z) 0)) s
  let s := (List.range 16).foldl (fun s u =>
    if (cap s u).running then
      let s := capEndUnit s u (if capKind s u ≤ 3 then nth ords (srcChan s (capSrc s u)) n else n)
      if capHost s u then dmaRelease s (par s 0x090C u) else s
    else s) s
  stopRest s running_

/-- The stop ordinal of a channel (R563): that of the cue channel in its own domain, and in another the first ordinal whose
sampling instant is at or after it, ordinal 0 of both being at the start instant. A channel that has passed it already
stops at the sample it has reached. DEDUCED, see assumption 67. -/
def stopTarget (s : State) (n c : Nat) : Nat :=
  let d := domainOf s c
  if d = cueChan s then n else Nat.max (ordNext s d) (cdiv (n * ordRate s d) (ordRate s (cueChan s)))

/-- The first ordinal at which a channel can be stopped: the next sample's, or, where that lies in a gap in progress, the one
after the sample that found the buffer full. -/
def stopNow (s : State) (c : Nat) : Nat :=
  match (chan s c).buf.dropping with
  | some f => if ordNext s c = f then (chan s c).buf.found + 1 else ordNext s c
  | none => ordNext s c

/-- A gap in progress ends with the channel's stop (R24): its marker names what was lost below the stop ordinal. -/
def stopGap (s : State) (d n : Nat) : State :=
  match (chan s d).buf.dropping with
  | some f =>
    if ordNext s d = f && decide (f < n) then channelMarkers id d ((chan s d).buf.ended.length + 1) (channelGap s d f (n - 1)) else s
  | none => s

/-- Every running channel has reached its stop ordinal. -/
def stopReached (s : State) : Bool :=
  (List.range 4).all (fun c => !(chan s c).running || (match (chan s (domainOf s c)).stopAt with
    | some n => decide (n ≤ ordNext s (domainOf s c))
    | none => true))

/-- What a transition out of RECORD does once channels have stopped: the played extents are written (R94). -/
def drainAfterStop (s : State) : State :=
  if s.md.mode = .record && (s.md.transit.any (fun t => decide (t.target ≠ .analyse))) then flushExtents s else s

/-- A `STOP` in progress is carried out once every channel has reached its stop ordinal. -/
def stopTry (s : State) : State :=
  match s.md.stopping with
  | none => s
  | some n =>
    if stopReached s then drainAfterStop (stopAll { s with md := { s.md with stopping := none } } n true) else s

/-- `STOP` at an ordinal of the cue channel: each channel runs on to its own stop ordinal (R563). -/
def stopAt (s : State) (n : Nat) : State :=
  let s := (List.range 4).foldl (fun s c =>
    if (chan s c).running && decide (domainOf s c = c) then
      let k := stopTarget s n c
      setChan (stopGap s c k) c (fun ch => { ch with stopAt := some k })
    else s) s
  stopTry { s with md := { s.md with stopping := some n } }

def specStop : CmdSpec := { opcode := 0x0006, atOk := true, modes := [.analyse, .record] }

def runStop (s : State) (p : Packet) (_ : Nat) (_ : List Byte) (at_ : Option Nat) : Ran :=
  match at_ with
  | some n => (stOK, [], schedule s p 0x0006 (cueChan s) n .stop)
  | none =>
    if !anyRunning s then (stOK, [], s) else
    match s.md.stopping with
    | some n => (stOK, appliedReply n, s)
    | none =>
      let n := stopNow s (cueChan s)
      (stOK, appliedReply n, stopAt s n)

/-- STOP (R563). -/
def execStop (p : Packet) (s : State) : Host.Outcome State Fault Refusal := .next (runPacket specStop runStop p s)

end Sys2Proof.Machine
end

