-- ==== Sys2Proof/Machine/LongOps.lean ====
section
/-! DEFINITION. The control of long operations (R77 to R83): QUERY_OP, SUSPEND_OP, RESUME_OP, CANCEL_OP, and what entry
to SAFE, WATCH or DORMANT does to them. -/
namespace Sys2Proof.Machine

/-- Table 2-16: the operations that can be suspended. -/
def opSuspendable (opcode : Nat) : Bool := !([0x0440, 0x1340, 0x1440].contains opcode)

/-- The operation with a handle, if it is known (R80). -/
def findOp (s : State) (h : Nat) : Option LongOp := s.ops.find? (fun o => decide (o.handle = h))

/-- The status field of a record (Table 2-15). -/
def opStatus (o : LongOp) : Nat :=
  match o.state with
  | .running | .suspending | .cancelling => stACCEPTED
  | .suspended => stSUSPENDED
  | .done => stOK
  | .failed => failStatus o.failed
  | .cancelled => stCANCELLED

/-- Progress in 0.01%. The work of `SELF_TEST` is counted in the tests of its bitmaps (R552). -/
def opProgress (o : LongOp) : Nat :=
  if o.state = .done then 10000
  else if o.opcode = 0x1340 then 10000 * popcount 32 (o.done % 2 ^ 32) / Nat.max 1 (popcount 32 o.total)
  else if o.total = 0 then 0 else Nat.min 10000 (10000 * o.done / o.total)

/-- The 32-byte record of R79. -/
def opRecord (o : LongOp) : List Byte :=
  leBytes 4 o.handle ++ leBytes 2 o.opcode ++ leBytes 1 (opStateCode o.state) ++ leBytes 1 0 ++ leBytes 2 (opStatus o) ++
  leBytes 2 0 ++ leBytes 4 (opProgress o) ++ leBytes 8 o.done ++ leBytes 8 o.total

def handleOf (p : List Byte) : Nat := fld p 0 4

/-- The reply payload of a refused control: the terminal state of a terminal operation (R80). -/
def controlFail (s : State) (p : List Byte) (step : Nat) : List Byte :=
  if step ≠ 7 then [] else
  match findOp s (handleOf p) with
  | some o => if opLive o then [] else leBytes 1 (opStateCode o.state)
  | none => []

/-- What every control shares: the payload is a known handle. `refuse` says what the operation's state forbids. -/
def controlSpec (opcode : Nat) (refuse : LongOp → Bool) : CmdSpec :=
  { opcode, len := fun p => decide (p.length = 4)
    badState := fun s _ p => decide (4 ≤ p.length) && match findOp s (handleOf p) with
      | some o => !opLive o || refuse o
      | none => false
    badParam := fun s _ p _ => (findOp s (handleOf p)).isNone
    fail := fun s _ p step _ => controlFail s p step }

def specQueryOp : CmdSpec :=
  { opcode := 0x0101, len := fun p => decide (p.length = 4), badParam := fun s _ p _ => (findOp s (handleOf p)).isNone }

def runQueryOp (s : State) (_ : Packet) (_ : Nat) (p : List Byte) (_ : Option Nat) : Ran :=
  match findOp s (handleOf p) with
  | some o => (stOK, opRecord o, s)
  | none => (stBAD_PARAM, [], s)

/-- QUERY_OP. -/
def execQueryOp (p : Packet) (s : State) : Host.Outcome State Fault Refusal := .next (runPacket specQueryOp runQueryOp p s)

def specSuspendOp : CmdSpec :=
  controlSpec 0x0102 (fun o => !opSuspendable o.opcode || decide (o.state = .cancelling))

def runSuspendOp (s : State) (_ : Packet) (_ : Nat) (p : List Byte) (_ : Option Nat) : Ran :=
  (stOK, [], match findOp s (handleOf p) with
    | some o => if o.state = .running then enterOpState s o.handle .suspending else s
    | none => s)

/-- SUSPEND_OP. -/
def execSuspendOp (p : Packet) (s : State) : Host.Outcome State Fault Refusal := .next (runPacket specSuspendOp runSuspendOp p s)

def specResumeOp : CmdSpec :=
  controlSpec 0x0103 (fun o => decide (o.state = .suspending) || decide (o.state = .cancelling))

def runResumeOp (s : State) (_ : Packet) (_ : Nat) (p : List Byte) (_ : Option Nat) : Ran :=
  (stOK, [], match findOp s (handleOf p) with
    | some o => if o.state = .suspended then enterOpState s o.handle .running else s
    | none => s)

/-- RESUME_OP. -/
def execResumeOp (p : Packet) (s : State) : Host.Outcome State Fault Refusal := .next (runPacket specResumeOp runResumeOp p s)

/-- `FW_UPDATE` past the switch of the boot selection cannot be cancelled (R83). -/
def specCancelOp : CmdSpec := controlSpec 0x0104 (fun o => o.points)

def runCancelOp (s : State) (_ : Packet) (_ : Nat) (p : List Byte) (_ : Option Nat) : Ran :=
  (stOK, [], match findOp s (handleOf p) with
    | some o => if o.state = .cancelling then s else enterOpState s o.handle .cancelling
    | none => s)

/-- CANCEL_OP. -/
def execCancelOp (p : Packet) (s : State) : Host.Outcome State Fault Refusal := .next (runPacket specCancelOp runCancelOp p s)

/-- Entry to SAFE, WATCH or DORMANT (R82). -/
def haltOps (s : State) : State :=
  (liveOps s).foldl (fun s o =>
    if opSuspendable o.opcode then (if o.state = .running then enterOpState s o.handle .suspending else s)
    else if o.points || decide (o.state = .cancelling) then s
    else enterOpState s o.handle .cancelling) s

/-- Every live operation is suspended (R82). -/
def opsAtRest (s : State) : Bool := (liveOps s).all (fun o => o.state = .suspended)

end Sys2Proof.Machine
end

