-- ==== Sys2Proof/Machine/Gauges.lean ====
section
/-! DEFINITION. Margin gauges, unit monitors and regulator setpoints (R479 to R483), as boot and the periodic readings
use them. -/
namespace Sys2Proof.Machine

def setHealth (s : State) (f : HealthUnit → HealthUnit) : State := { s with health := f s.health }

/-- A gauge reading outside 0.25 to 4.0 (R482). -/
def gaugeBroken (f : Nat) : Bool := decide (f < 4096) || decide (65536 < f)

/-- The good gauges of a region. -/
def goodGauges (s : State) (q : Nat) : List Nat :=
  ((List.range 16).map (16 * q + ·)).filter (fun k => !s.health.failed.contains k)

/-- g_q of a region from the gauges as last read; a region without a good gauge keeps its factor. -/
def regionLow (s : State) (q : Nat) : Nat :=
  match (goodGauges s q).map (fun k => tgetD s.health.gauges k 0) with
  | [] => nth s.health.factor q 0
  | f :: fs => fs.foldl Nat.min f

/-- Every gauge is read: a reading out of bounds marks its gauge failed until reset, and is logged (R482). -/
def readGauges (s : State) (factors : List Nat) : State :=
  let s := ((factors.take 64).zipIdx).foldl (fun s x =>
    if s.health.failed.contains x.2 then s
    else if gaugeBroken x.1 then
      logResolved (setHealth s (fun h => { h with failed := h.failed ++ [x.2], gauges := tput h.gauges x.2 0 })) 0x1186 0x14
        (x.2 / 16) (x.2 + 65536 * x.1)
    else setHealth s (fun h => { h with gauges := tput h.gauges x.2 x.1 })) s
  setHealth s (fun h => { h with factor := (List.range 4).map (regionLow s) })

/-- The region of a unit monitor. -/
def monRegion (m : Nat) : Nat := if m < 16 then m / 4 else if m < 272 then (m - 16) / 64 else (m - 272) / 4 % 4

/-- The unit monitors are read: each unit's ρ, and the region factors kept as G_q (R483). -/
def readMonitors (s : State) (l : List (Nat × Nat)) : State :=
  setHealth s (fun h => { h with
    rho := l.foldl (fun t x => tput t x.1 (x.2 * 16384 / Nat.max 1 (nth h.factor (monRegion x.1) 0))) h.rho
    replanF := h.factor })

/-- The newest entry of the ageing record. -/
def newestEntry (s : State) : Option (List Byte) := s.health.ageing.getLast?

/-- R480: the setpoints of the newest ageing entry, or 0.90 V on first power-on. -/
def bootSetpoints (s : State) : State :=
  let l := (List.range 4).map (fun q => 900 + (match newestEntry s with
    | some e => fld e (12 + q) 1
    | none => 0))
  (List.range 4).foldl (fun s q => emit s (.pmbusVout q (nth l q 900)))
    (setHealth s (fun h => { h with setpoint := l, oldSet := l }))

end Sys2Proof.Machine
end

