-- ==== Sys2Proof/Machine/Modes.lean ====
section
/-! DEFINITION. Modes and transitions (R90 to R108): SET_MODE, what begins and what completes a transition, wakes, and
SAFE entry. -/
namespace Sys2Proof.Machine

def setMd (s : State) (f : ModeUnit → ModeUnit) : State := { s with md := f s.md }

/-- The modes in which channels may run (R91). -/
def runMode (m : Mode) : Bool := m = .analyse || m = .record

/-- The transitions that `SET_MODE` makes (Table 3-2). -/
def modeListed (a b : Mode) : Bool :=
  match a, b with
  | .boot, _ => false
  | _, .safe => true
  | .idle, b => b = .analyse || b = .record || b = .watch || b = .dormant || b = .service
  | .analyse, b => b = .record || b = .idle || b = .watch
  | .record, b => b = .analyse || b = .idle || b = .watch
  | .watch, b => b = .idle || b = .analyse || b = .record || b = .dormant
  | .service, b => b = .idle
  | .safe, b => b = .idle
  | .dormant, _ => false

/-! ### The pair link in the modes without it (R498) -/

/-- The pair link goes down. -/
def linkFall (s : State) : State :=
  if !s.pair.link then s else
  raise { s with pair := { s.pair with link := false, lanes := 0, peerLead := false } } 0x1201 0 0 (cueNow s)

/-! ### SERVICE (R104) -/

/-- The configuration in force. -/
def configOf (s : State) : SavedConfig :=
  { params := s.params, images := s.cue.sheets.map (·.image), masks := s.cue.masks, windows := s.streams.map (·.user)
    dus := s.dus, cluts := s.disps.map (·.clutNext), coefs := s.chans.map (fun c => (c.coef, c.loaded)) }

/-- Puts a saved configuration back: parameters, tables and coefficient sets. -/
def putConfig (s : State) (c : SavedConfig) : State :=
  { s with
    params := c.params
    cue := { s.cue with
      sheets := List.zipWith (fun (sh : Sheet) i => { sh with image := i }) s.cue.sheets c.images, masks := c.masks }
    streams := List.zipWith (fun (st : Stream) u => { st with user := u }) s.streams c.windows
    dus := List.zipWith (fun (d o : DensityUnit) =>
      { d with palette0 := o.palette0, palette1 := o.palette1, active := o.active, userMap := o.userMap }) s.dus c.dus
    disps := List.zipWith (fun (d : DisplayOut) t => { d with clutNext := t }) s.disps c.cluts
    chans := List.zipWith (fun (ch : Channel) (x : CoefSet × Option CoefSet) => { ch with coef := x.1, loaded := x.2 }) s.chans c.coefs
    saved := none }

/-- What parameters drive follows them when they are replaced as a whole: the reference in use and the precision DACs. -/
def paramsDrive (was s : State) : State :=
  let s := refWritten s
  (List.range 8).foldl (fun s d =>
    if decide (par s 0x0F30 d = par was 0x0F30 d) && decide (par s 0x0F31 d = par was 0x0F31 d) then s
    else pdacSchedule s d none (some (par s 0x0F30 d)) (some (par s 0x0F31 d)) 0 false) s

/-- Restores a configuration, with what its parameters drive. -/
def restoreConfig (s : State) (c : SavedConfig) : State := paramsDrive s (putConfig s c)

/-- Engines stop, and their programs and memories are cleared. -/
def clearEngines (s : State) : State :=
  { s with
    engines := s.engines.map (fun x => (x.1,
      { st := if x.2.st = .offline then .offline else .stopped, epoch := x.2.epoch, physical := x.2.physical
        storesLost := x.2.storesLost }))
    clusters := s.clusters.map (fun x => (x.1, { x.2 with shared := [], mail := List.replicate 16 [], cache := [] })) }

/-! ### What begins a transition -/

/-- The clusters that a mode gates (R98, R99). -/
def gatedIn (m : Mode) : List Nat :=
  match m with
  | .watch => (List.range 16).drop 1
  | .dormant => List.range 16
  | _ => []

/-- Begins a transition: the implicit `STOP` and the store drain (R94), the pauses and suspensions of entry to WATCH and
DORMANT (R82, R384), the configuration kept over SERVICE (R104). -/
def beginMode (s : State) (target : Mode) (reason : Nat) : State :=
  let was := s.md.mode
  let s := if runMode was && !runMode target && anyRunning s then stopAt s (stopNow s (cueChan s)) else s
  let s := if was = .record && !anyRunning s then flushExtents s else s
  let s := if target = .watch || target = .dormant then
      let s := haltOps (setMd s (fun m => { m with wakeCause := 0, wakePending := false, wakeStamp := none }))
      (gatedIn target).foldl gateAsk s
    else s
  let s := if target = .service then { s with saved := some (configOf s) } else s
  let s := if was = .service then
      let s := clearEngines (match s.saved with
        | some c => restoreConfig s c
        | none => s)
      { s with tap := { s.tap with instr := .idcode, driving := false, highz := false } }
    else s
  setMd s (fun m => { m with transit := some { target, reason } })

/-! ### SAFE (R105 to R108) -/

/-- What drives the trigger outputs and the pulse gates low. -/
def outputsLow (s : State) : State :=
  emit { s with cue := { s.cue with trg := s.cue.trg.map (fun t => { t with high := none, queue := [] }) }
                gates := s.gates.map (fun g => { g with high := none }) } .outputsLow

/-- The steps of Table 3-8. -/
def safeSteps (s : State) : State :=
  let s := outputsLow (clearPdacs s)
  let s := if anyRunning s then stopAll s (ordNext s (cueChan s)) false else discardPend s (fun _ => true)
  let s := haltOps { s with pair := { s.pair with aliveToggling := false } }
  let s := sealForSafe s
  let s := (s.engines.filter (fun x => engActive x.2)).foldl (fun s x => stopEngine s x.1 .stopped) s
  { s with disps := s.disps.map (fun d => { d with running := false }), aux := { s.aux with running := false, stopping := false } }

/-- Enters SAFE for a cause; a transition in progress is abandoned, one from SAFE to IDLE too (R95). In SAFE, or on the way
there, a further cause is logged only (R105): the spec gives its entry no code, so code and kind are free. BOOT knows only
causes 6 and 7. -/
def enterSafe (s : State) (cause : Nat) : State :=
  if s.md.mode = .boot then s
  else if (s.md.mode = .safe && s.md.transit.isNone) || (s.md.transit.map (·.target)) = some .safe then
    let (code, s) := takeFree s
    let (kind, s) := takeFree s
    logResolved s (code % 65536) (kind % 256) 0 cause
  else
    let s := safeSteps s
    let s := setMd s (fun m => { m with safeCause := cause, waking := false, wakePending := false, wakeTimerOn := false,
                                        transit := some { target := .safe, reason := if cause = 1 then 0 else 2 } })
    raiseLatched (setSticky s 1) 0x0003 0 cause

/-- The lowest deviation of a region (Table 3-10), saturating at -128 mV. -/
def lowestDev (s : State) : Int := max (-128) (s.md.deviation.foldl min 127)

/-- Posts `SHED_LEVEL` (Table 3-14). -/
def postShed (s : State) (inst old new : Nat) : State :=
  raise s 0x0002 inst (new + 256 * old + 65536 * uns 8 (lowestDev s)) (cueNow s)

/-- What the device knows of R108: deviations, the thermal trip, the fatal entries. That no cause has been present in
the last second, and that no rail is low, it samples (free). -/
def mayLeaveSafe (s : State) : Bool :=
  s.md.deviation.all (fun d => decide (-60 < d)) && !s.md.tripped && s.health.temps.all (fun t => decide (t < 1150)) &&
  (decide (s.md.safeCause ≠ 5) || s.health.log.all (fun e => e.st ≠ 4)) &&
  decide (s.md.safeCause ≠ 6) && decide (s.md.safeCause ≠ 7) && decide (Config.free s.fresh % 2 = 0)

/-- Level 5 ends with SAFE (R111): what every level did is undone, and nothing runs that could resume. -/
def leaveShed (s : State) : State :=
  if s.md.level = 0 then s else
  let old := s.md.level
  let s := setMd s (fun m => { m with level := 0, regionLevel := [0, 0, 0, 0] })
  let s := shedPause s false
  let s := { s with dus := s.dus.map (fun d => { d with pauses := d.pauses.map (fun p => (p.1, some (p.2.getD p.1))) }) }
  postShed s 0 old 0

/-! ### SET_MODE (R93 to R95) -/

/-- What a transition to ANALYSE or RECORD, or to WATCH, needs (R92, R115, R150). -/
def modeUnfit (s : State) (t : Mode) : Bool :=
  (decide (t = .record) && !storeTakes s) ||
  (runMode t && decide (3 ≤ s.md.level)) ||
  ((runMode t || t = .watch) && decide (s.clk.source = 0))

/-- A scheduled transition. -/
def modePending (s : State) : Bool :=
  s.pend.any (fun c => match c.act with
    | .mode _ => true
    | _ => false)

def specSetMode : CmdSpec :=
  { opcode := 0x0004, atOk := true, len := fun p => decide (p.length = 8)
    badState := fun s _ p => !p.isEmpty && match modeOf (fld p 0 1) with
      | none => false
      | some t =>
        if t = s.md.mode && s.md.transit.isNone then false
        else (s.md.transit.isNone && !modeListed s.md.mode t) || modeUnfit s t || (s.md.mode = .safe && t = .idle && !mayLeaveSafe s)
    badParam := fun s _ p at_ => (modeOf (fld p 0 1)).isNone || !zeroBytes p 1 7 ||
      (at_ && match modeOf (fld p 0 1) with
        | some t => !(runMode s.md.mode && runMode t && decide (t ≠ s.md.mode))
        | none => false)
    held := fun s _ p => busyIf (modePending s && decide (fld p 0 1 ≠ 7)) }

def runSetMode (s : State) (p : Packet) (_ : Nat) (pl : List Byte) (at_ : Option Nat) : Ran :=
  match modeOf (fld pl 0 1), at_ with
  | none, _ => (stBAD_PARAM, [], s)
  | some t, some n => (stOK, [], schedule s p 0x0004 (cueChan s) n (.mode t))
  | some t, none =>
    if t = s.md.mode && s.md.transit.isNone then (stOK, [], s)
    else if t = .safe then (stOK, [], if (s.md.transit.map (·.target)) = some .safe then s else enterSafe s 1)
    else (stOK, [], beginMode (if s.md.mode = .safe then leaveShed s else s) t 0)

/-- SET_MODE. In SAFE each command samples afresh whether its causes have been absent for 1 s (R108). -/
def execSetMode (p : Packet) (s : State) : Host.Outcome State Fault Refusal :=
  let s' := runPacket specSetMode runSetMode p s
  .next (if s.md.mode = .safe then { s' with fresh := s'.fresh + 1 } else s')

/-! ### MODE_CHANGED: what completes a transition -/

/-- A running or waiting engine of a list of clusters. -/
def stillRunning (s : State) (cs : List Nat) : Bool :=
  s.engines.any (fun x => cs.contains (clusterOf x.1) && (x.2.st = .running || x.2.st = .waiting))

/-- Everything that a transition waits for has happened: the store drain (R94), the suspensions (R82), the pauses of the
clusters to be gated (R384). Entry to SAFE waits for none of them (R106). -/
def modeReady (s : State) (t : Mode) : Bool :=
  (t = .safe || runMode t || !runMode s.md.mode || !(anyRunning s || storeBusy s)) &&
  (!(t = .watch || t = .dormant) || (opsAtRest s && !stillRunning s (gatedIn t)))

/-- The mode that a wake reaches: the target, or IDLE where the target cannot be entered. -/
def wakeArrival (s : State) (t : Mode) : Mode := if modeUnfit s t then .idle else t

/-- The reference at an exit from DORMANT (R151): REFIN counts where it has been qualified since the exit began. DESIGN CHOICE,
see assumption 65: a change of SOURCE there has reason 1 where REFIN comes into use and 0 where it does not; Table 5-9
names none for it. -/
def wakeRef (s : State) : State := moveRef s (if refChoice s = 1 then 1 else 0)

/-- The auxiliary converter, comparators and displays follow their settings and the mode. -/
def unitsFollow (s : State) : State := (List.range 3).foldl dispFollow ((List.range 16).foldl cmpFollow (auxFollow s))

/-- The units follow the mode: PLLs, clusters, auxiliary converter, comparators, displays, links. -/
def followMode (s : State) (was t : Mode) : State :=
  let s := if was = .dormant then wakeRef s else s
  let s := pllsFollow s t
  let s := (List.range 16).foldl (fun s c =>
    if (gatedIn t).contains c then (if (cluster s c).gated then s else gateCluster s c)
    else if t = .safe then s else ungateCluster s c) s
  let s := unitsFollow (if was = .dormant && t = .watch then srFollow s .idle else srFollow s t)
  let s := if dispPowered t then s else (List.range 2).foldl (fun s o => setDisp (dropLink s o) o (fun d => { d with hpd := false })) s
  let s := if t = .dormant then losePps (setClk s (fun c => { c with refinOk := false, refinFreq := 0, refinHz := 0 })) else s
  let s := if t = .dormant || t = .safe then linkFall s else s
  { s with pair := { s.pair with aliveToggling := !(t = .boot || t = .dormant || t = .safe) } }

/-- The device is in its new mode. -/
def arriveMode (s : State) (t : Mode) (reason : Nat) : State :=
  let was := s.md.mode
  let s := setMd s (fun m => { m with
    mode := t, transit := none, waking := false, wakeTimerOn := t = .watch || t = .dormant })
  let s := followMode s was t
  let s := if t ≠ .safe && runMode was && !runMode t then sealStore s else s
  let s := raise s 0x0001 (modeCode t) (modeCode was + 256 * reason) (cueNow s)
  if reason = 1 then
    let stamp := s.md.wakeStamp
    let (e, s) := mkEvent s 0x0004 0 s.md.wakeCause none
    let s := post s (match stamp with
      | some t => { e with time := some t }
      | none => e)
    let s := setMd s (fun m => { m with wakeStamp := none })
    if runMode t && decide (par s 0x0019 0 = 1) && !startBarred s && !startBad s && !startBusy s && !startFull s then
      let (at_, s) := takeFree s
      startAll s (s.md.lastStarted.filter (chanOn s true)) at_
    else s
  else s

/-- MODE_CHANGED: a transition completes once everything it waits for has happened; a wake that fired during entry to
WATCH or DORMANT then begins at once (R102). -/
def execModeChanged (s : State) : Host.Outcome State Fault Refusal :=
  .next (if s.md.mode = .boot then s else
    match s.md.transit with
    | none => s
    | some tr =>
      let t := if tr.reason = 1 then wakeArrival s tr.target else tr.target
      if !modeReady s t then s
      else
        let s := undefinedOpcodes (arriveMode s t tr.reason)
        if s.md.wakePending then beginWake s else s)

/-- A scheduled transition at its cue ordinal: between ANALYSE and RECORD, without TRANSIT (R95). DESIGN CHOICE, see
assumption 65: one to RECORD that finds the store no longer mounted has no effect; the manual does not say. -/
def modeDue (s : State) (t : Mode) : State :=
  if t = .record && !storeTakes s then s
  else
    let s := if s.md.mode = .record then flushExtents s else s
    arriveMode s t 0

/-! ### Wakes -/

/-- WAKE_BALL: the WAKE ball is asserted (R100). -/
def execWakeBall (s : State) : Host.Outcome State Fault Refusal := .next (fireWake s 0 none)

/-- WAKE_TIMER_EXPIRY: the count of `sys.wake_timer` has passed (R101). -/
def execWakeTimerExpiry (s : State) : Host.Outcome State Fault Refusal :=
  .next (if s.md.wakeTimerOn && decide (par s 0x001A 0 ≠ 0) then fireWake (setMd s (fun m => { m with wakeTimerOn := false })) 4 none else s)

end Sys2Proof.Machine
end

