-- ==== Sys2Proof/Machine/Shedding.lean ====
section
/-! DEFINITION. Shed levels (R109 to R117), the I/O rail warning and the thermal trip. -/
namespace Sys2Proof.Machine

/-- Entry and recovery thresholds of the levels, in mV (Table 3-9). -/
def shedEnter (n : Nat) : Int := nth [0, -25, -40, -55, -70, -90] n 0
def shedRecover (n : Nat) : Int := nth [0, -15, -30, -45, -60, 0] n 0

/-- A zoom that re-planning has stopped (R486). -/
def zoomReduced (s : State) (z : Nat) : Bool :=
  s.health.reductions.any (fun r => decide (r.order = 1) && decide (r.code = 0x0200 + z))

/-- Stops a running zoom as shedding and re-planning do, from an applied ordinal on. -/
def zoomShed (s : State) (z : Nat) : State :=
  if (nth s.zooms z {}).running then zoomHalt s z true (appliedOrd s (zoomChan s z)) else s

/-- Restarts a zoom that was shed, as a new stream, where it may run again (R113). -/
def zoomUnshed (s : State) (z : Nat) : State :=
  let x := nth s.zooms z {}
  if x.shed && !x.running && zoomMay s z && !zoomReduced s z && (chan s (zoomChan s z)).running then
    startZoom s z (appliedOrd s (zoomChan s z))
  else s

/-- The zooms of a range. -/
def zoomRange (lo hi : Nat) : List Nat := (List.range hi).drop lo

/-- Restarts the enabled streams of running sources that a level stopped (R113). -/
def streamsUnshed (s : State) : State :=
  (List.range 16).foldl (fun s n =>
    if streamSet s n && !(stream s n).running && sourceRuns s (xfSrc s n) && !sourceBarred s (xfSrc s n) then
      startStream s n (appliedOrd s (xfChan s n)) else s) s

/-- The actions that a level adds at its entry (Table 3-9). A blanked display unblanks at a frame start (R113). -/
def shedAct (s : State) (n : Nat) : State :=
  match n with
  | 1 =>
    let s := { s with disps := s.disps.map (fun d => if d.running then { d with blanked := true } else d) }
    (List.range 4).foldl (fun s u =>
      if (du s u).running && !duPaused (du s u) then
        setDu s u (fun d => { d with pauses := d.pauses ++ [(appliedOrd s (duChan s u), none)], tainted := true })
      else s) s
  | 2 => (zoomRange 4 32).foldl zoomShed (shedPause s true)
  | 3 => (zoomRange 0 4).foldl zoomShed ((List.range 16).foldl (fun s k => hopForce s k (appliedOrd s (xfChan s k))) s)
  | 4 => flushExtents ((List.range 16).foldl (fun s k =>
      if (stream s k).running then streamHalt s k true else s) s)
  | _ => s

/-- What recovery from a level undoes (R113). -/
def shedUndo (s : State) (n : Nat) : State :=
  match n with
  | 1 => (List.range 4).foldl (fun s u =>
      let c := appliedOrd s (duChan s u)
      setDu s u (fun d => { d with pauses := d.pauses.map (fun p => (p.1, some (p.2.getD c))) })) s
  | 2 => (zoomRange 4 32).foldl zoomUnshed (shedPause s false)
  | 3 => (zoomRange 0 4).foldl zoomUnshed ((List.range 16).foldl (fun s k => hopForce s k (appliedOrd s (xfChan s k))) s)
  | 4 => streamsUnshed s
  | _ => s

/-- The device enters a level above its own: the actions of every level on the way, one event, one count (R110, R117). -/
def shedTo (s : State) (inst n : Nat) : State :=
  let old := s.md.level
  if n ≤ old then s else
  let s := setMd s (fun m => { m with level := n, shedCount := lmod m.shedCount (n - 1) (fun k => satU 32 (k + 1)) })
  let s := setHealth s (fun h => { h with today := { h.today with sheds := h.today.sheds + 1 } })
  let s := setSticky s 2
  let s := reshare (((List.range (n + 1)).drop (old + 1)).foldl shedAct s)
  let s := postShed s inst old n
  -- whether the peer sheds alike is not known here (R510)
  if decide (2 ≤ n) && s.pair.sync then
    let (f, s) := takeFree s
    if f % 2 = 0 then loseSync s 4 else s
  else s

/-- SHED_LEVEL_ENTRY: a region's deviation, as its monitor reads it (R117); where it has stayed below a level's threshold for
its dwell, the level is entered (R110). -/
def execShedLevelEntry (q : Fin 4) (level : Fin 5) (deviation : Int) (s : State) : Host.Outcome State Fault Refusal :=
  let n := level.val + 1
  .next (if s.md.mode = .boot then s
    else
      let s := setMd s (fun m => { m with deviation := lmod m.deviation q (fun _ => deviation) })
      if shedEnter n ≤ deviation then s
      else
        let s := setMd s (fun m => { m with regionLevel := lmod m.regionLevel q (Nat.max n) })
        let s := shedTo s q n
        if n = 5 then enterSafe s 2 else s)

/-- SHED_LEVEL_RECOVERY: the deviations as the monitors read them (R117); where every region has stayed above the recovery
threshold of the device's level for its hold time, the level falls by one (R111). The event names the region of the
lowest deviation. -/
def execShedLevelRecovery (deviations : List Int) (s : State) : Host.Outcome State Fault Refusal :=
  let n := s.md.level
  .next (if s.md.mode = .boot || decide (deviations.length ≠ 4) then s
    else
      let s := setMd s (fun m => { m with deviation := deviations })
      if n = 0 || n = 5 || !deviations.all (fun d => decide (shedRecover n < d)) then s
      else
      let s := setMd s (fun m => { m with
        level := n - 1, regionLevel := m.regionLevel.map (fun l => Nat.min l (n - 1)) })
      let s := reshare (shedUndo s n)
      postShed s ((List.range 4).find? (fun q => decide (nth deviations q 0 = deviations.foldl min 127)) |>.getD 0) n (n - 1))

/-- IO_RAIL_WARNING: a rail below 94% for 2 µs, or a regulator's under-voltage warning; level 5 at once (R109, R110). -/
def ioWarn (s : State) : State :=
  if s.md.mode = .boot then s else enterSafe (shedTo s 0xFFFF 5) 3

def execIoRailWarning (_ : Option (Fin 4)) (s : State) : Host.Outcome State Fault Refusal := .next (ioWarn s)

/-- THERMAL_TRIP: Tj at or above 130 C for 1 ms (R105). -/
def execThermalTrip (s : State) : Host.Outcome State Fault Refusal :=
  .next (if s.md.mode = .boot then s else enterSafe (setMd s (fun m => { m with tripped := true })) 4)

end Sys2Proof.Machine
end

