-- ==== Sys2Proof/Machine/Boot.lean ====
section
/-! DEFINITION. Reset and boot (R96, R97, R480, R530, R555). -/
namespace Sys2Proof.Machine

/-! ### Reset -/

/-- What a long operation that a reset breaks off leaves behind (Table 2-16). -/
def brokenOps (s : State) : State :=
  let s := match liveOp s 0x1440 with
    | some o => if o.points then s else { s with sec := { s.sec with slots := lmod s.sec.slots (nth o.work.args 0 0) (fun _ => none) } }
    | none => s
  if (liveOp s 0x0A40).isSome then { s with store := { s.store with formatted := false } } else s

/-- Every reset returns to BOOT (R96): the outputs are driven low and the PDACs to the clear codes of reset (R458), and only
what flash, fuses, straps and the drives hold is kept, and the coefficient sets in force (Table 2-16). DESIGN CHOICE, see
assumption 65: the table says so of a reset that breaks a calibration off; the manual gives the sets no reset value. -/
def toBoot (s : State) (cause : Nat) : State :=
  let s := brokenOps (outputsLow (clearPdacs { s with params := [] }))
  { pending := s.pending, out := s.out, fresh := s.fresh, variant := s.variant, die := s.die, serial := s.serial
    mgmtAddr := s.mgmtAddr
    chans := s.chans.map (fun c => { coef := c.coef })
    md := { powered := s.md.powered, rstLow := s.md.rstLow, cause := cause }
    store := storeReset s
    hbm := { facets := s.hbm.facets }
    health := { ageing := s.health.ageing, life := s.health.life, hours := s.health.hours, day := s.health.day
                minutes := s.health.minutes, today := s.health.today }
    pair := { term := s.pair.term }
    tap := { s.tap with driving := false, highz := false }
    sec := { s.sec with nonce := none, debug := none, firmware := 0, rollback := 0 } }

/-! ### The boot sequence (Table 3-4) -/

/-- An image that verifies against the fuses (R554). -/
def verifiedSlot (s : State) (i : Nat) : Option SlotImage :=
  match nth s.sec.slots i none with
  | some x => if s.sec.counter ≤ x.rollback then some x else none
  | none => none

/-- R555: a watchdog reset under TRIAL selects the other slot, and clears TRIAL. -/
def selectSlot (s : State) : State :=
  if s.md.cause = 3 && s.sec.trial then
    let sel := 1 - s.sec.selected
    emit { s with sec := { s.sec with selected := sel, trial := false, selSeq := s.sec.selSeq + 1 } }
      (.flashSelect sel false (s.sec.selSeq + 1))
  else s

/-- A slot found bad at this boot (Table 3-5). -/
def markBad (s : State) (i : Nat) : State :=
  setMd s (fun m => if i = 0 then { m with aBad := true } else { m with bBad := true })

/-- The slot runs its image. -/
def runSlot (s : State) (i : Nat) (x : SlotImage) : State :=
  { s with md := { s.md with bootSlot := i }, sec := { s.sec with firmware := x.version, rollback := x.rollback } }

/-- The selected slot is verified, then the other (R97); where neither verifies, the ROM serves. -/
def chooseSlot (s : State) : State :=
  let a := s.sec.selected
  match verifiedSlot s a with
  | some x => runSlot s a x
  | none =>
    let s := markBad s a
    match verifiedSlot s (1 - a) with
    | some x => runSlot s (1 - a) x
    | none => setMd (markBad s (1 - a)) (fun m => { m with romServes := true })

/-- Boot begins: the straps are sampled, the ROM starts, an image is chosen, the reference is selected (R88, R96, R151). -/
def beginBoot (s : State) (f : BootFacts) : State :=
  let s := { s with mgmtAddr := f.mgmtAddr, sec := { s.sec with slots := [f.slotA, f.slotB] } }
  let s := selectRef s f.refinHz f.xoHz
  let s := setMd s (fun m => { m with booting := true, resetCause := m.cause })
  pllsFollow (chooseSlot (selectSlot s)) .idle

/-- The facts of a boot that follows a reset without a change of the board's. -/
def sameFacts (s : State) : BootFacts :=
  { slotA := nth s.sec.slots 0 none, slotB := nth s.sec.slots 1 none, mgmtAddr := s.mgmtAddr
    refinHz := if s.clk.refinOk then s.clk.refinHz else 0, xoHz := if s.clk.xoOk then 100000000 else 0 }

/-- RST_N_ASSERT. -/
def execRstNAssert (s : State) : Host.Outcome State Fault Refusal :=
  .next (if s.md.rstLow then s else setMd (toBoot s 2) (fun m => { m with rstLow := true, cause := if m.powered then 2 else 1 }))

/-- RST_N_RELEASE: boot begins, at once or at the release of the power-on monitor (R530). -/
def execRstNRelease (f : BootFacts) (s : State) : Host.Outcome State Fault Refusal :=
  .next (if !s.md.rstLow then s
    else
      let s := setMd s (fun m => { m with rstLow := false })
      if s.md.powered then beginBoot s f else s)

/-- POWER_LOSS: a rail below its monitor threshold resets the device (R530). -/
def execPowerLoss (s : State) : Host.Outcome State Fault Refusal :=
  .next (if !s.md.powered then s else setMd (toBoot s 1) (fun m => { m with powered := false }))

/-- POWER_ON_MONITOR_RELEASE. -/
def execPowerOnMonitorRelease (f : BootFacts) (s : State) : Host.Outcome State Fault Refusal :=
  .next (if s.md.powered then s
    else
      let s := setMd s (fun m => { m with powered := true })
      if s.md.rstLow then s else beginBoot s f)

/-- A reset from within: 3 the watchdog, 4 the restart of `FW_UPDATE`; boot begins at once. -/
def restartDevice (s : State) (cause : Nat) : State := beginBoot (toBoot s cause) (sameFacts s)

/-- WATCHDOG_RESET (R555). In reset nothing runs that could stall. -/
def execWatchdogReset (s : State) : Host.Outcome State Fault Refusal :=
  .next (if !s.md.powered || s.md.rstLow then s else restartDevice s 3)

/-! ### The end of boot -/

/-- SAFE from BOOT, causes 6 and 7: the steps of Table 3-8 have nothing to stop (R105). -/
def safeFromBoot (s : State) (cause : Nat) : State :=
  let s := setMd s (fun m => { m with mode := .safe, transit := none, booting := false, safeCause := cause })
  let s := raiseLatched (setSticky s 1) 0x0003 0 cause
  undefinedOpcodes (raise s 0x0001 7 (256 * 2))

/-- A stack's training at boot (R97, R410). -/
def trainStack (s : State) (k : Nat) (t : StackTraining) : State :=
  setStack s k (fun x => { x with trained := decide (t.result < 2), retrained := decide (1 ≤ t.result), repaired := t.repaired })

/-- BOOT_COMPLETE: the stacks have trained, memories are cleared, the gauges and monitors read, the capacities set, the
store mounted; IDLE is reached, or SAFE. -/
def execBootComplete (hbmStacks : List StackTraining) (timeMs : Nat) (m : MountFacts) (gauges : List Nat)
    (monitors : List (Nat × Nat)) (s : State) : Host.Outcome State Fault Refusal :=
  .next (if s.md.mode ≠ .boot || !s.md.booting || !s.md.powered || s.md.rstLow then s
    else if s.md.romServes then safeFromBoot s 6
    else
      let l := ((fittedList s.variant 0x0B).map (fun k => (k, nth hbmStacks k { result := 0, repaired := 0 })))
      let s := l.foldl (fun s x => trainStack s x.1 x.2) s
      let s := setMd s (fun d => { d with hbmRetry := l.any (fun x => decide (1 ≤ x.2.result)), hbmFail := l.any (fun x => decide (2 ≤ x.2.result)) })
      if s.md.hbmFail then safeFromBoot s 7
      else
        let s := readMonitors (readGauges (bootSetpoints s) gauges) monitors
        let s := setMd s (fun d => { d with mode := .idle, transit := none, booting := false, everIdle := true, bootTime := Nat.min 255 (timeMs / 10) })
        let s := raise (reshare s) 0x0001 1 0
        let s := mountStore s m
        undefinedOpcodes (followMode s .boot .idle))

end Sys2Proof.Machine
end

