-- ==== Sys2Proof/Machine/Health.lean ====
section
/-! DEFINITION. Health and the error log (chapter 17): gauge readings, the PMBus, thermal warnings, the ageing record,
unit errors and their recovery, and the commands that read them. -/
namespace Sys2Proof.Machine

/-- The stage manager runs: in every mode but BOOT and DORMANT (R421). -/
def managerUp (s : State) : Bool := !(s.md.mode = .boot || s.md.mode = .dormant)

def setToday (s : State) (f : DayFacts → DayFacts) : State := setHealth s (fun h => { h with today := f h.today })

/-! ### Gauges (R21, R482, R484) -/

/-- Headroom of a resource below the target (R485). -/
def isShort (s : State) (r : Nat) : Bool := decide ((resource s false r).1 < (par s 0x1111 0 : Int))

/-- GAUGE_READING: the gauges are read, the capacities follow, and what depends on them is judged anew. -/
def execGaugeReading (factors : List Nat) (s : State) : Host.Outcome State Fault Refusal :=
  .next (if !managerUp s then s else
    let s := readGauges s factors
    let s := setToday s (fun d => { d with low := List.zipWith (fun l g => if l = 0 then g else Nat.min l g) d.low s.health.factor })
    let s := reshare ((fittedList s.variant 0x0A).foldl roomPause s)
    setHealth s (fun h => { h with lowRuns := (h.lowRuns.zipIdx).map (fun x => if isShort s x.2 then x.1 + 1 else 0) }))

/-! ### Regulators and temperatures (R477 to R481) -/

/-- A regulator fault of R479: the setpoint freezes until reset. -/
def pmbusFault (s : State) (q status : Nat) : State :=
  if nth s.health.frozen q false then s else
  let s := setHealth s (fun h => { h with frozen := lmod h.frozen q (fun _ => true), waiting := lmod h.waiting q (fun _ => false) })
  logResolved (raiseLatched s 0x1105 q status) 0x1185 0x14 q status

/-- The region sensors as the poll finds them; the thermal trip ends below 115 C (R108). -/
def noteTemp (s : State) (q : Nat) (t : Int) : State :=
  let s := setHealth s (fun h => { h with temps := lmod h.temps q (fun _ => t) })
  let s := setToday s (fun d => { d with
    tmax := lmod d.tmax q (fun m => max m t), tsum := lmod d.tsum q (fun m => m + t), tn := lmod d.tn q (· + 1) })
  setMd s (fun m => { m with tripped := m.tripped && !s.health.temps.all (fun x => decide (x < 1150)) })

/-- PMBUS_POLL (R478, R479). The region's hottest sensor is read with it. -/
def execPmbusPoll (q : Fin 4) (f : PmbusFacts) (s : State) : Host.Outcome State Fault Refusal :=
  .next (if !managerUp s then s
    else if !f.responded then
      let n := nth s.health.noAnswer q 0 + 1
      let s := setHealth s (fun h => { h with noAnswer := lmod h.noAnswer q (fun _ => n) })
      if 3 ≤ n then pmbusFault s q 0 else s
    else
      let s := setHealth s (fun h => { h with
        noAnswer := lmod h.noAnswer q (fun _ => 0), volts := lmod h.volts q (fun _ => f.vout)
        current := lmod h.current q (fun _ => f.iout) })
      let s := noteTemp s q f.temp
      let s := if f.fault then pmbusFault s q f.status else s
      if f.uvWarn then ioWarn s else s)

/-- REGULATION_REACHED: two readings within 5 mV of a new setpoint, or 10 ms without them (R116, R479). -/
def execRegulationReached (q : Fin 4) (reached : Bool) (s : State) : Host.Outcome State Fault Refusal :=
  .next (if !nth s.health.waiting q false then s
    else if reached then setHealth s (fun h => { h with
      waiting := lmod h.waiting q (fun _ => false), oldSet := lmod h.oldSet q (fun _ => nth h.setpoint q 900) })
    else pmbusFault s q 0)

/-- THERMAL_WARN (R481). -/
def execThermalWarn (q : Fin 4) (tempDeci : Int) (s : State) : Host.Outcome State Fault Refusal :=
  .next (if !managerUp s || decide (tempDeci < 10 * (par s 0x1113 0 : Int)) then s
    else raiseLatched (setToday (noteTemp s q tempDeci) (fun d => { d with warn := true })) 0x1104 q (uns 32 tempDeci))

/-- REGION_SKEW (R477): the pair of adjacent regions is named by its lower region, which Q3 is of none. -/
def execRegionSkew (lower : Fin 4) (voltage temperature : Bool) (s : State) : Host.Outcome State Fault Refusal :=
  .next (if !managerUp s || !(voltage || temperature) || lower.val = 3 then s
    else
      let d := b2n voltage + 2 * b2n temperature
      logResolved (raiseLatched (setToday s (fun x => { x with skew := true })) 0x1103 lower d) 0x1186 0x14 lower d)

/-! ### Ageing (R489 to R491) -/

/-- LIFE_MINUTE: a powered minute adds its weight (R490). -/
def execLifeMinute (tjDeci : Int) (s : State) : Host.Outcome State Fault Refusal :=
  .next (if !s.md.powered then s else
    let w := if tjDeci ≤ 1050 then 65536 else Config.lifeWeight tjDeci
    let s := setHealth s (fun h => { h with
      life := h.life + w, minutes := h.minutes + 1, hours := h.hours + (if (h.minutes + 1) % 60 = 0 then 1 else 0) })
    let s := if 1050 < tjDeci then setToday s (fun d => { d with hot := d.hot + 1 }) else s
    if tjDeci < 1150 then setMd s (fun m => { m with tripped := false }) else s)

/-- `hm.life_used`, 0.001% (R490). -/
def lifeUsed (s : State) : Nat := Nat.min (2 ^ 32 - 1) (s.health.life * 100000 / (10519200 * 65536))

/-- A temperature in whole degrees, rounded half up, as a signed byte. -/
def degrees (t : Int) : List Byte := leInt 1 (max (-128) (min 127 ((t + 5) / 10)))

/-- The ageing entry of the day (Table 17-5); `secs` is the TIME80 second at writing. -/
def ageingBytes (s : State) (secs : Option Nat) : List Byte :=
  let h := s.health
  let d := h.today
  let flags := b2n d.replan + 2 * b2n d.met + 4 * b2n (!h.reductions.isEmpty) + 8 * b2n secs.isSome + 16 * b2n d.warn +
    32 * b2n d.skew
  let q := List.range 4
  let mean : Nat → Int := fun k => if d.tn.getD k 0 = 0 then 0 else d.tsum.getD k 0 / (d.tn.getD k 0 : Int)
  let b := leBytes 4 h.day ++ leBytes 6 (secs.getD 0) ++ leBytes 2 flags ++
    q.flatMap (fun k => leBytes 1 (nth h.setpoint k 900 - 900)) ++ q.flatMap (fun k => leBytes 2 (nth h.replanF k 0)) ++
    q.flatMap (fun k => leBytes 2 (nth d.low k 0)) ++ q.flatMap (fun k => degrees (nth d.tmax k 0)) ++
    q.flatMap (fun k => degrees (mean k)) ++ leBytes 2 (satU 16 d.hot) ++ leBytes 2 (satU 16 d.sheds) ++
    leBytes 2 (satU 16 d.errors) ++ leBytes 1 (satU 8 (s.clusters.filter (fun c => c.2.spare = 1)).length) ++
    leBytes 1 (satU 8 h.offline.length) ++ leBytes 4 h.hours ++ leBytes 4 (lifeUsed s) ++
    leInt 2 (max (-32768) (min 32767 d.room)) ++ zeros 2
  b ++ leBytes 4 (crc32c b)

/-- AGEING_ENTRY: 24 h of powered time have passed (R489). -/
def execAgeingEntry (s : State) : Host.Outcome State Fault Refusal :=
  .next (if s.health.minutes < 1440 || !managerUp s then s else
    let (secs, s) := if timeValid s then
        match (if running s (cueChan s) then timeOfOrd s (ordNext s (cueChan s)) 0 else none) with
        | some t => (some (t / 2 ^ 32), s)
        | none => let (f, s) := takeFree s; (some (f % 2 ^ 48), s)
      else (none, s)
    let b := ageingBytes s secs
    let s := setHealth s (fun h => { h with
      ageing := let l := h.ageing ++ [b]; l.drop (l.length - 11264)
      day := h.day + 1, minutes := h.minutes - 1440, today := {} })
    emit s (.flashAgeing b))

/-- The entries of a span of days. -/
def ageingDays (s : State) (first count : Nat) : List (List Byte) :=
  s.health.ageing.filter (fun e => decide (first ≤ fld e 0 4) && decide (fld e 0 4 < first + count))

def specHmAgeingRead : CmdSpec :=
  { opcode := 0x1150, len := fun p => decide (p.length = 8)
    badParam := fun _ _ p _ => decide (fld p 4 1 = 0) || decide (63 < fld p 4 1) || !zeroBytes p 5 3 }

def runHmAgeingRead (s : State) (_ : Packet) (_ : Nat) (p : List Byte) (_ : Option Nat) : Ran :=
  let l := ageingDays s (fld p 0 4) (fld p 4 1)
  let first := match l with
    | e :: _ => fld e 0 4
    | [] => fld p 0 4
  (stOK, leBytes 4 first ++ leBytes 1 l.length ++ zeros 3 ++ l.flatten, s)

/-- HM_AGEING_READ (R491). -/
def execHmAgeingRead (p : Packet) (s : State) : Host.Outcome State Fault Refusal :=
  .next (runPacket specHmAgeingRead runHmAgeingRead p s)

/-! ### Unit errors (Table 17-7, R493, R494) -/

/-- The unit kinds that a recoverable error code names. -/
def errKinds : Nat → List Nat
  | 0x1181 => [0x01, 0x02, 0x03, 0x07, 0x08]
  | 0x1182 => [0x02, 0x03, 0x07, 0x08, 0x09]
  | 0x1183 => [0x06]
  | _ => []

/-- The codes whose recovery reads "none". -/
def errPlain (code : Nat) : Bool := [0x0D02, 0x1184, 0x0C04, 0x0212, 0x1185, 0x1186, 0x1281].contains code

/-- The stores in an engine's buffer are discarded (R375, R376). -/
def discardStores (s : State) (e : Nat) : State :=
  let n := (eng s e).buf.length
  let s := setEng s e (fun x => { x with buf := [], storesLost := satU 32 (x.storesLost + n) })
  if n = 0 then s else raise (logResolved s 0x0C04 0x06 e n) 0x0C04 e n

/-- An engine with an error in its memory stops, and must be loaded again (0x1183). -/
def engineMemErr (s : State) (e : Nat) : State :=
  let s := discardStores s e
  setEng s e (fun x => { x with
    st := if x.st = .offline || x.st = .gated then x.st else .stopped, loaded := false, branch := none, rep := none
    stall := .none, loads := [], chain := [] })

/-- What a unit taken offline does (R494). -/
def takeOffline (s : State) (kind inst : Nat) : State :=
  match kind with
  | 0x06 =>
    let s := engineMemErr s inst
    if (cluster s (clusterOf inst)).spare = 0 then substitute s inst
    else setEng (setHealth s (fun h => { h with offline := h.offline ++ [(6, inst)] })) inst (fun x => { x with st := .offline })
  | _ =>
    let s := setHealth s (fun h => { h with offline := h.offline ++ [(kind, inst)] })
    match kind with
    | 0x02 => if (nth s.zooms inst {}).running then zoomHalt s inst false (appliedOrd s (zoomChan s inst)) else s
    | 0x07 => duStop s inst
    | 0x08 => capEndUnit s inst (appliedOrd s (srcChan s (capSrc s inst)))
    | _ => s

/-- The entry of a sequence number takes a state. -/
def setEntry (s : State) (seq st : Nat) : State :=
  setHealth s (fun h => { h with log := h.log.map (fun e => if e.seq = seq then { e with st } else e) })

/-- The first unit in error is recovering. -/
def recoverNext (s : State) : State :=
  match s.health.queue with
  | u :: _ => setEntry s u.seq 1
  | [] => s

/-- A recoverable error: a second one in a unit not yet recovered takes it offline (R494). -/
def unitError (s : State) (code kind inst detail : Nat) : State :=
  match s.health.queue.find? (fun u => decide (u.kind = kind) && decide (u.inst = inst)) with
  | some u =>
    let n := s.health.seq
    let s := logEntry s code kind inst detail false 3 true
    let seq := if s.health.seq = n then 0 else s.health.seq
    let s := setEntry s u.seq 3
    let s := setHealth s (fun h => { h with queue := h.queue.filter (fun x => !decide (x = u)) })
    reshare (recoverNext (raise (takeOffline s kind inst) 0x0215 inst (kind + 256 * (seq % 2 ^ 24))))
  | none =>
    let n := s.health.seq
    let s := logEntry s code kind inst detail false (if s.health.queue.isEmpty then 1 else 0) false
    let seq := if s.health.seq = n then 0 else s.health.seq
    let s := setHealth s (fun h => { h with queue := h.queue ++ [{ kind, inst, code, seq }] })
    if code = 0x1183 then engineMemErr s inst else s

/-- An error names the device, or a unit that the variant fits (R9). -/
def errUnitFitted (s : State) (k i : Nat) : Bool := decide (kindWidth k = 0) || fitted s.variant k i

/-- UNIT_ERROR_DETECTED. A unit that is absent or out of service has no errors; a code outside Table 17-7 is none. -/
def execUnitErrorDetected (code : BitVec 16) (kind : BitVec 8) (inst : BitVec 16) (detail : W64) (s : State) :
    Host.Outcome State Fault Refusal :=
  let c := code.toNat
  let k := kind.toNat
  let i := inst.toNat
  .next (if !managerUp s || !errUnitFitted s k i then s
    else if (errKinds c).contains k then
      (if !isOffline s k i then unitError s c k i detail.toNat else s)
    else if errPlain c then logResolved s c k i detail.toNat
    else if c = 0x11F0 || c = 0x11F1 then enterSafe (logEntry s c k i detail.toNat true 4 false) 5
    else s)

/-- A unit restarts as a new stream at the applied ordinal (0x1181), its inputs having been lost. -/
def restartUnit (s : State) (kind inst : Nat) : State :=
  match kind with
  | 0x01 => setChan s inst (fun c => { c with hist := [] })
  | 0x02 =>
    if (nth s.zooms inst {}).running then
      let c := appliedOrd s (zoomChan s inst)
      startZoom (zoomHalt s inst false c) inst c
    else s
  | 0x03 =>
    (List.range 16).foldl (fun s n =>
      if (stream s n).running && (nth s.tus inst {}).shares.any (fun x => decide (x.1 = n)) then
        startStream (streamHalt s n false) n (appliedOrd s (xfChan s n))
      else s) s
  | 0x07 => setDu s inst (fun d => { d with queue := [] })
  | 0x08 =>
    if (cap s inst).running then
      let c := appliedOrd s (srcChan s (capSrc s inst))
      capStartUnit (capEndUnit s inst c) inst c
    else s
  | _ => s

/-- ERROR_RECOVERY: the unit being recovered is recovered, its entry RESOLVED, and the next one's turn comes (R493). -/
def execErrorRecovery (s : State) : Host.Outcome State Fault Refusal :=
  .next (match s.health.queue with
    | [] => s
    | u :: rest =>
      let s := setHealth s (fun h => { h with queue := rest })
      let s := if u.code = 0x1181 then restartUnit s u.kind u.inst
        else if u.code = 0x1182 && decide (u.kind = 0x07) then setDu s u.inst (fun d => { d with cells := [] })
        else s
      recoverNext (setEntry s u.seq 2))

/-! ### ERRLOG_READ, ERRLOG_CLEAR (R496) -/

def specErrlogRead : CmdSpec := { opcode := 0x0202 }

def runErrlogRead (s : State) (_ : Packet) (_ : Nat) (_ : List Byte) (_ : Option Nat) : Ran :=
  (stOK, leBytes 2 s.health.log.length ++ leBytes 4 s.health.overflow ++ zeros 10 ++ s.health.log.flatMap errBytes, s)

/-- ERRLOG_READ. -/
def execErrlogRead (p : Packet) (s : State) : Host.Outcome State Fault Refusal := .next (runPacket specErrlogRead runErrlogRead p s)

def specErrlogClear : CmdSpec :=
  { opcode := 0x0203, len := fun p => decide (p.length = 8)
    badState := fun s _ p => bit (fld p 0 1) 2 && decide (s.md.mode ≠ .safe)
    badParam := fun _ _ p _ => decide (8 ≤ fld p 0 1) || !zeroBytes p 1 7 }

def runErrlogClear (s : State) (_ : Packet) (_ : Nat) (p : List Byte) (_ : Option Nat) : Ran :=
  let m := fld p 0 1
  (stOK, [], setHealth s (fun h => { h with log := h.log.filter (fun e => !(decide (2 ≤ e.st) && bit m (e.st - 2))) }))

/-- ERRLOG_CLEAR. -/
def execErrlogClear (p : Packet) (s : State) : Host.Outcome State Fault Refusal := .next (runPacket specErrlogClear runErrlogClear p s)

/-- ALIVE_COUNT: the count of R421, from the first entry to IDLE onwards. -/
def execAliveCount (s : State) : Host.Outcome State Fault Refusal :=
  .next (if managerUp s && s.md.everIdle then { s with host := { s.host with alive := (s.host.alive + 1) % 2 ^ 64 } } else s)

end Sys2Proof.Machine
end

