-- ==== Sys2Proof/Machine/Replan.lean ====
section
/-! DEFINITION. Margin re-planning (R484 to R488): the long operation of MARGIN_REPLAN, by the actions of Table 17-2. -/
namespace Sys2Proof.Machine

/-! ### What is short -/

/-- The resources below target. -/
def shortList (s : State) : List Nat := (List.range 5).filter (isShort s)

/-- The units of a resource below target, by instance; for the fabric, the fitted transform units. -/
def shortUnits (s : State) (r : Nat) : List Nat :=
  if !isShort s r then []
  else if r = 2 then units16.filter (tuIn s)
  else ((resUnits s false r).filter (fun u => decide (headroom01 u.2.1 u.2.2 < (par s 0x1111 0 : Int)))).map (·.1)

/-- The unit kind of a resource's units. -/
def resKind (r : Nat) : Nat := nth [0x01, 0x02, 0x03, 0x07, 0x0A] r 0

/-- The regions that host a short resource. -/
def shortRegions (s : State) : List Nat :=
  (List.range 4).filter (fun q => (List.range 5).any (fun r => (shortUnits s r).any (fun u => decide (regionOf (resKind r) u = q))))

/-! ### Actions -/

/-- Writes a region's setpoint; its regulator is not yet in regulation (R116, R479). -/
def setRail (s : State) (q mv : Nat) : State :=
  emit (setHealth s (fun h => { h with
    setpoint := lmod h.setpoint q (fun _ => mv), waiting := lmod h.waiting q (fun _ => true) })) (.pmbusVout q mv)

/-- Step 1: the region to raise. -/
def raiseChoice (s : State) : Option Nat :=
  let l := (shortRegions s).filter (fun q => decide (nth s.health.setpoint q 900 + 10 ≤ par s 0x1112 0) && !nth s.health.frozen q false)
  l.find? (fun q => l.all (fun k => decide (nth s.health.factor q 0 ≤ nth s.health.factor k 0)))

/-- The in-service engine of a cluster with the lowest ρ that the spare exceeds by more than 5% (step 2). -/
def spareChoice (s : State) : Option Nat :=
  ((shortUnits s 4).filterMap (fun c =>
    let es := (clEngines c).filter (fun e => fitted s.variant 0x06 e && (eng s e).st ≠ .offline)
    match es.find? (fun e => es.all (fun k => decide (rhoOf s (aeMon s e) ≤ rhoOf s (aeMon s k)))) with
    | some e =>
      if (cluster s c).spare = 0 && !(eng s e).pauseSubst && !(eng s e).substNext &&
          decide (105 * rhoOf s (aeMon s e) < 100 * rhoOf s (monSpare c)) then some e else none
    | none => none)).head?

/-- The highest element of a list that passes a test. -/
def lastWith (l : List Nat) (f : Nat → Bool) : Option Nat := l.reverse.find? f

/-- Step 3: the next reduction of Table 17-3 that relieves a short resource. -/
def reduceChoice (s : State) : Option Reduction :=
  let at_ := fun k n => (stream s n).running && decide (xfHopNow s n = k)
  let two := isShort s 2
  let mk := fun o (n : Nat) => ({ order := o, code := 0x0300 + n, prev := xfHopNow s n } : Reduction)
  let zoomRuns := fun z => (nth s.zooms z {}).running
  if two && (lastWith units16 (at_ 3)).isSome then (lastWith units16 (at_ 3)).map (mk 0)
  else if two && (lastWith units16 (at_ 2)).isSome then (lastWith units16 (at_ 2)).map (mk 0)
  else
    let b1 := (shortUnits s 1).find? (fun z => decide (4 ≤ z) && zoomRuns z)
    let b2 := if two then lastWith (zoomRange 4 32) (fun z => zoomRuns z &&
        (List.range 16).any (fun n => (stream s n).running && decide (xfSrc s n = 0x0200 + z))) else none
    match b1.orElse (fun _ => b2) with
    | some z => some { order := 1, code := 0x0200 + z, prev := 0 }
    | none => if two then (lastWith units16 (at_ 1)).map (mk 2) else none

/-- The cue ordinal stamp of a reduction on a stream or zoom. -/
def reductionOrd (s : State) (r : Reduction) : Option (Nat × Nat) :=
  let c := if r.order = 1 then zoomChan s (r.code % 256) else xfChan s (r.code % 256)
  ordIf s c (appliedOrd s c)

/-- Applies a reduction (R486). -/
def applyReduction (s : State) (r : Reduction) : State :=
  let ord := reductionOrd s r
  let s := setHealth s (fun h => { h with reductions := r :: h.reductions })
  let s := if r.order = 1 then zoomShed s (r.code % 256)
    else hopForce s (r.code % 256) (appliedOrd s (xfChan s (r.code % 256)))
  raise (reshare s) 0x1101 r.code (r.order + 4) ord

/-- Undoes the latest reduction. -/
def undoReduction (s : State) (r : Reduction) : State :=
  let ord := reductionOrd s r
  let s := setHealth s (fun h => { h with reductions := h.reductions.drop 1 })
  let s := if r.order = 1 then zoomUnshed s (r.code % 256)
    else hopForce s (r.code % 256) (appliedOrd s (xfChan s (r.code % 256)))
  raise (reshare s) 0x1101 r.code r.order ord

/-- Step 4: the state with the latest reduction undone, where every resource keeps the target plus 10 points. -/
def restoreChoice (s : State) : Option State :=
  match s.health.reductions with
  | [] => none
  | r :: _ =>
    let t := undoReduction s r
    if (List.range 5).all (fun k => decide ((par s 0x1111 0 : Int) + 1000 ≤ (resource t false k).1)) then some t else none

/-- Whether a resource has units in a region. -/
def hosts (s : State) (q r : Nat) : Bool :=
  (fittedList s.variant (resKind r)).any (fun u => decide (regionOf (resKind r) u = q))

/-- Step 5: a region may be lowered. -/
def mayRelax (s : State) (q : Nat) : Bool :=
  decide (900 < nth s.health.setpoint q 900) && !nth s.health.frozen q false && s.health.reductions.isEmpty &&
  ((List.range 5).filter (hosts s q)).all (fun r => decide (3000 ≤ (resource s false r).1))

/-- After step 2, a short resource that no reduction touches is reported (R486). -/
def marginShort (s : State) : State :=
  ((List.range 5).filter (fun r => decide (r ≠ 2) && (shortUnits s r).any (fun u => decide (r ≠ 1) || decide (u < 4)))).foldl
    (fun s r => raiseLatched s 0x1102 r (uns 32 (resource s false r).1)) s

/-! ### The plan of an operation -/

/-- The plan: [stage, region waited for + 1, NO_REDUCE, 1 after a lowering]. Stage 0 awaits the monitor readings, 1 to 4
are the steps of Table 17-2, 5 to 8 step 5 at Q0 to Q3, 9 the end. -/
def planAt (o : LongOp) (k : Nat) : Nat := nth o.work.args k 0

def setPlan (s : State) (h : Nat) (l : List Nat) : State := setOp s h (fun o => { o with work := { o.work with args := l } })

/-- One more action is done. -/
def actionDone (s : State) (h : Nat) : State := setOp s h (fun o => { o with done := o.done + 1 })

/-- The end of the plan: what the day's ageing entry records (R488). -/
def planEnd (s : State) (h : Nat) : State :=
  let room := ((List.range 5).map (fun r => (resource s false r).1)).foldl min 10000
  let s := setToday s (fun d => { d with replan := true, met := (shortList s).isEmpty, room })
  enterOpState s h .done

/-- Takes the next action, passing the steps that have none; `fuel` bounds the steps passed. -/
def planAct : Nat → Nat → Nat → Nat → State → State
  | 0, _, _, _, s => s
  | f + 1, h, stage, no, s =>
    let next := fun s => planAct f h (stage + 1) no s
    match stage with
    | 0 => s
    | 1 => match raiseChoice s with
      | some q => setPlan (setRail s q (nth s.health.setpoint q 900 + 10)) h [1, q + 1, no, 0]
      | none => next s
    | 2 => match spareChoice s with
      | some e => setPlan (actionDone (orderSubstitute s e) h) h [2, 0, no, 0]
      | none => next (marginShort s)
    | 3 => match (if no = 1 then none else reduceChoice s) with
      | some r => setPlan (actionDone (applyReduction s r) h) h [3, 0, no, 0]
      | none => next s
    | 4 => match restoreChoice s with
      | some t => setPlan (actionDone t h) h [4, 0, no, 0]
      | none => next s
    | 9 => planEnd s h
    | n + 5 =>
      if mayRelax s n then setPlan (setRail s n (nth s.health.setpoint n 900 - 10)) h [n + 5, n + 1, no, 1]
      else next s

/-- One boundary of the operation. A rail step ends when its regulator is in regulation and the region read again; it is
not begun while the shed level is 1 or higher (R487). -/
def replanStep (s : State) (o : LongOp) (f : StepFacts) : State :=
  let stage := planAt o 0
  let wait := planAt o 1
  let no := planAt o 2
  if stage = 0 then
    match f with
    | .monitors l => setPlan (readMonitors s l) o.handle [1, 0, no, 0]
    | _ => s
  else if wait ≠ 0 then
    let q := wait - 1
    if nth s.health.waiting q false then s
    else match f with
      | .regulated =>
        let s := actionDone s o.handle
        if planAt o 3 = 1 then
          if shortList s ≠ [] && !nth s.health.frozen q false then
            setPlan (setRail s q (nth s.health.setpoint q 900 + 10)) o.handle [stage + 1, q + 1, no, 0]
          else setPlan s o.handle [stage + 1, 0, no, 0]
        else setPlan s o.handle [stage, 0, no, 0]
      | _ => s
  else if 1 ≤ s.md.level then s
  else match f with
    | .done => planAct 10 o.handle stage no s
    | _ => s

/-! ### MARGIN_REPLAN and its automatic start -/

def specMarginReplan : CmdSpec :=
  { opcode := 0x1140, modes := [.idle, .analyse, .record], len := fun p => decide (p.length = 8), starts := true
    badParam := fun _ _ p _ => decide (2 ≤ fld p 0 1) || !zeroBytes p 1 7, held := fun s _ _ => heldBy s [0x1140] }

/-- The operation starts; the count of its actions is not known before (the work total is free). -/
def startReplan (s : State) (tag no : Nat) : Nat × State :=
  let (t, s) := takeFree s
  startOp s 0x1140 0 tag (t % 2 ^ 64) { args := [0, 0, no, 0] }

def runMarginReplan (s : State) (p : Packet) (_ : Nat) (pl : List Byte) (_ : Option Nat) : Ran :=
  let (h, s) := startReplan s p.tag.toNat (fld pl 0 1)
  (stACCEPTED, leBytes 4 h, s)

/-- MARGIN_REPLAN (R484). -/
def execMarginReplan (p : Packet) (s : State) : Host.Outcome State Fault Refusal :=
  .next (runPacket specMarginReplan runMarginReplan p s)

/-- REPLAN_AUTO_START: on its period, or when a resource has been below target for 60 gauge readings in a row (R484). -/
def execReplanAutoStart (scheduled : Bool) (s : State) : Host.Outcome State Fault Refusal :=
  .next (if !(s.md.mode = .idle || runMode s.md.mode) || s.md.transit.isSome || (liveOp s 0x1140).isSome ||
      decide (16 ≤ (liveOps s).length) || (scheduled && decide (par s 0x1110 0 = 0)) ||
      (!scheduled && s.health.lowRuns.all (fun n => decide (n < 60))) then s
    else
      let (_, s) := startReplan s 0 0
      if scheduled then s else setHealth s (fun h => { h with lowRuns := [0, 0, 0, 0, 0] }))

end Sys2Proof.Machine
end

