-- ==== Sys2Proof/Machine/Reading.lean ====
section
/-! DEFINITION. What GET_PARAM reads (R6, R70): the value of every parameter, and the unit it belongs to. -/
namespace Sys2Proof.Machine

/-! ### The unit of a parameter -/

/-- The unit kind and instance that a parameter instance belongs to, where it belongs to one that a variant may lack. -/
def parUnit (id i : Nat) : Option (Nat × Nat) :=
  match id / 256 with
  | 0x04 => some (0x01, if id = 0x0404 then 0 else i)
  | 0x05 => if id = 0x0507 then some (0x0E, i / 2) else if 0x0520 ≤ id then some (0x0F, i) else if id = 0x0504 || id = 0x0505 then some (0x0E, i) else none
  | 0x06 => some (0x02, i)
  | 0x07 => some (0x03, i)
  | 0x08 =>
    if id ≤ 0x0806 then some (0x09, i) else if id ≤ 0x080A then some (0x09, i / 8)
    else if 0x0830 ≤ id then some (0x12, i) else none
  | 0x09 => if id = 0x0912 || id = 0x091D then none else some (0x08, i)
  | 0x0A => if id = 0x0A0A then some (0x0C, i) else none
  | 0x0B => if id < 0x0B20 then some (0x07, i) else if id < 0x0B30 then some (0x0D, i) else some (0x0D, i / 2)
  | 0x0C => if id < 0x0C18 then some (0x06, i) else some (0x0A, i)
  | 0x0D =>
    if id = 0x0D01 || id = 0x0D0E || id = 0x0D0F || id = 0x0D10 || id = 0x0D14 then some (0x0B, i)
    else if id = 0x0D02 || id = 0x0D04 || id = 0x0D05 then some (0x15, i) else none
  | 0x0F => if 0x0F30 ≤ id then some (0x11, i) else if 0x0F20 ≤ id then some (0x10, i) else none
  | 0x10 => if id < 0x1010 then some (0x05, i) else none
  | 0x11 => if id = 0x1104 then some (0x13, i) else none
  | _ => none

/-- A parameter instance of an absent unit. -/
def parAbsent (s : State) (id i : Nat) : Bool :=
  match parUnit id i with
  | some (k, u) => !fitted s.variant k u
  | none => false

/-! ### Status words, chapter by chapter -/

/-- `sys.mode` (Table 3-3). -/
def modeWord (s : State) : Nat :=
  pack [(0, modeCode s.md.mode), (8, modeCode ((s.md.transit.map (·.target)).getD s.md.mode)), (16, b2n s.md.transit.isSome)]

def sysPar (s : State) (id i : Nat) : Nat :=
  let r := resource s false i
  match id with
  | 0x0011 => if s.md.mode = .boot then 0 else uns 64 r.1
  | 0x0012 =>
    if s.md.mode = .boot then nth [12000, 6000, if s.variant = .f then 96000 else 48000, 24000, 12800] i 0
    else r.2.1.1 / (r.2.1.2 * 1000000)
  | 0x0013 => if s.md.mode = .boot then 0 else cdiv r.2.2.1 (r.2.2.2 * 1000000)
  | 0x0016 => modeWord s
  | 0x001B => s.md.wakeCause
  | 0x001C => pack [(0, s.md.bootSlot), (4, s.md.resetCause), (8, s.md.bootTime)] +
      flags [(16, s.md.aBad), (17, s.md.bBad), (18, s.md.hbmRetry), (19, s.md.hbmFail)]
  | 0x001D => pack ((0, s.md.level) :: (8, uns 8 (min 127 (lowestDev s))) ::
      (List.range 4).map (fun q => (16 + q, b2n (decide (nth s.md.deviation q 0 < -25)))))
  | 0x001E => nth s.md.shedCount (i - 1) 0
  | 0x001F => s.md.safeCause
  | _ => 0

def convPar (s : State) (id i : Nat) : Nat :=
  let c := chan s i
  match id with
  | 0x040A => flags [(0, c.running), (1, c.los), (2, c.ovrSeen), (3, c.calValid), (4, c.stale), (5, paired s && decide (i < 2))] +
      256 * c.fsInForce
  | _ => c.ovrCount

/-- Class 0x05. ACTIVE of `pg.status` is set while the gate is enabled, not DONE, and the cue channel runs. DESIGN CHOICE, see
assumption 65: Table 5-5 does not say what ACTIVE means. -/
def clkPar (s : State) (id i : Nat) : Nat :=
  let c := s.clk
  let p := nth c.plls i {}
  match id with
  | 0x0503 => flags [(0, c.refinOk), (3, c.xoOk), (8, c.ppsQual), (9, holdover s), (10, c.refLostSeen), (11, c.ppsLostSeen)] +
      pack [(1, if c.refinOk then c.refinFreq else 0), (4, c.source)]
  | 0x0504 => flags [(0, p.powered), (1, p.lock), (2, p.coast), (3, p.unlockSeen)] +
      pack [(8, if i < 2 then divCode (par s 0x0401 (2 * i)) else 0), (16, uns 16 p.diff)]
  | 0x0505 => vcoMhz s i
  | 0x0508 => c.holdMs
  | 0x0509 => c.ppsRejects
  | _ =>
    let g := gate s i
    b2n (gateOpen s i && running s (cueChan s)) + 2 * b2n g.done + 4 * Nat.min g.emitted (2 ^ 62 - 1)

def zoomPar (s : State) (id i : Nat) : Nat :=
  let z := nth s.zooms i {}
  match id with
  | 0x0620 => z.sat + flags [(24, z.running), (25, zoomDouble s i), (26, zoomHeld s i), (27, z.shed)]
  | 0x0621 => qRound (qMul (zoomRate (asWritten s) i) (qNat 1000))
  | 0x0622 => (qReduce (zoomStride (asWritten s) i)).1
  | 0x0623 => (qReduce (zoomStride (asWritten s) i)).2
  | _ => z.origin

/-- The stride of a stream's frames (R200, R216, R217). -/
def xfStride (s : State) (n : Nat) : Q :=
  let h := hopOf (xfN s n) (if (stream s n).running then (stream s n).hop else par s 0x0705 n)
  match xpar s 0x0720 n with
  | 0 => qMul (qNat h) (srcStride s (xfSrc s n))
  | 1 => (h * par s 0x0522 0, 1)
  | 2 => (h * par s 0x0522 1, 1)
  | _ => (0, 0)

/-- SOURCE_WAIT of Table 7-8: the stream is enabled and its source does not run (R218). -/
def xfWaits (s : State) (i : Nat) : Bool :=
  decide (par s 0x0701 i = 1) && !(stream s i).running && !sourceRuns s (xfSrc s i)

def xfPar (s : State) (id i : Nat) : Nat :=
  let t := stream s i
  match id with
  | 0x0728 => flags [(0, t.running), (4, xfWaits s i), (5, xfLong s i), (6, xfRa s i), (7, t.forcedShed || t.forcedReplan), (8, t.shedStop)] +
      4 * (if t.running then t.hop else par s 0x0705 i)
  | 0x0729 => if 16 ≤ par s 0x0720 i then 0 else t.originOrd
  | 0x072A => (xfStride s i).1
  | 0x072B => (xfStride s i).2
  | 0x072C => qRound (qMul (xfFrameRate s i (if t.running then t.hop else par s 0x0705 i)) (qNat 1000))
  | 0x072D => t.segment
  | 0x072E => t.ignored
  | 0x072F => if streamOn s false i then let d := xfDemandAt s i (xfHopNow s i); cdiv d.1 (d.2 * 1000000) else 0
  | 0x0730 => tuLoad01 s i
  | 0x0731 => let c := tuCap s i; c.1 / (c.2 * 1000000)
  | _ => ((nth s.tus i {}).shares.filter (fun x => decide (x.1 < 16))).foldl (fun a x => a ||| (1 <<< x.1)) 0

def cuePar (s : State) (id i : Nat) : Nat :=
  let sh := nth s.cue.sheets i {}
  match id with
  | 0x0801 =>
    pack [(0, sh.core.cue), (4, if sh.image.isEmpty then 0 else imgCues sh.image - 1),
      (8, match sh.core.st with
        | .disarmed => 0
        | .armed => 1
        | .paused => 2)] +
    flags [(10, sh.core.timed), (11, sh.taskOvf), (12, sh.lateSeen), (13, !sh.image.isEmpty)]
  | 0x0802 => sh.fires
  | 0x0803 => sh.strikes
  | 0x0804 => requiredLatency s (sheetImages s) i
  | 0x0809 => (nth (nth s.cue.sheets (i / 8) {}).core.pending (i % 8) []).length
  | 0x080A => nth (nth s.cue.sheets (i / 8) {}).taskCount (i % 8) 0
  | 0x0826 =>
    let m := nth s.cue.masks i {}
    flags [(0, decide (m.active = 1)), (1, maskPending s i), (2, (stream s (maskStream s i)).running)]
  | 0x0832 => (nth s.cue.trg i {}).count
  | _ => (nth s.cue.trg i {}).dropped

def capPar (s : State) (id i : Nat) : Nat :=
  let c := cap s i
  match id with
  | 0x0918 => flags [(0, c.running), (1, c.armed), (2, !c.recs.isEmpty), (3, c.blocked)]
  | 0x0919 => c.step
  | 0x091A => capPreMax s (sheetImages s) i
  | 0x091B => c.records
  | 0x091C => c.ignored
  | _ => backlog01 s

/-- Class 0x0A; the write rate is a measured value (`m`). -/
def storePar (s : State) (id i m : Nat) : Nat :=
  let t := s.store
  let active := (t.members.zipIdx).filter (fun x => x.1.state = 1)
  match id with
  | 0x0A01 => t.state + flags [(3, t.mirror), (4, t.encrypted), (5, t.degraded), (6, t.full), (7, t.locked)]
  | 0x0A02 => active.foldl (fun a x => a ||| (1 <<< x.2)) 0
  | 0x0A03 => (active.foldl (fun a x => a + (x.1.slots - x.1.used.length)) 0) * 2 ^ 26
  | 0x0A07 => m % 2 ^ 64
  | 0x0A08 => (t.records.filter (fun r => r.state ≠ 4)).length
  | 0x0A09 => (t.records.filter (fun r => r.state = 3)).length
  | _ => (nth t.members i {}).state

def dispPar (s : State) (id i : Nat) : Nat :=
  if id < 0x0B20 then
    let d := du s i
    match id with
    | 0x0B18 => flags [(0, d.running), (1, duPaused d), (2, decide (d.dec ≠ 0)), (3, d.lsat), (4, d.ovr), (5, d.stl), (6, d.sat),
        (7, decide (d.active = 1)), (8, swapPending s i)]
    | 0x0B19 => d.dec
    | 0x0B1A => d.n
    | 0x0B1B => d.renderN
    | 0x0B1C => d.gapFrames
    | 0x0B1D => d.clipped
    | 0x0B1E => d.pausedFrames
    | _ => d.skipped
  else
    let d := disp s i
    match id with
    | 0x0B28 => flags [(0, d.running), (1, d.blanked), (2, d.hpd), (3, d.trained), (4, linkShort s i), (10, d.underrunSeen), (11, d.poisonSeen)] +
        pack [(5, d.lanes), (8, d.rate)]
    | 0x0B29 => d.underruns
    | _ => d.frames

/-- The codes of Table 11-16. -/
def engCode : EngState → Nat
  | .stopped => 0 | .running => 1 | .waiting => 2 | .paused => 3 | .halted => 4 | .faulted => 5 | .gated => 6 | .offline => 7

def aePar (s : State) (id i : Nat) : Nat :=
  let x := eng s i
  match id with
  | 0x0C01 => engCode x.st
  | 0x0C02 => x.faults
  | 0x0C03 => x.bundles
  | 0x0C04 => x.holdPeak
  | 0x0C05 => x.watermark
  | 0x0C10 => if x.loaded then x.prog.cls + 4 * b2n x.prog.determinate + 8 else 0
  | 0x0C11 => if aeDeclares x then x.prog.rate else 0
  | 0x0C12 => x.storesLost
  | 0x0C13 => physicalOf s i
  | 0x0C18 => (cluster s i).epoch
  | _ => (cluster s i).spare

def hbmPar (s : State) (id i : Nat) : Nat :=
  let k := nth s.hbm.hbmStacks i {}
  match id with
  | 0x0D01 => flags [(0, true), (1, k.trained), (4, k.retrained), (5, (liveOp s 0x0D40).isSome), (6, k.ceSeen), (7, k.poisonSeen)] +
      pack [(2, match k.sr with
        | .active => 0
        | .entering => 1
        | .selfRefresh => 2
        | .exiting => 3), (16, k.repaired)]
  | 0x0D04 => tgetD s.hbm.late i 0
  | 0x0D05 => tgetD s.hbm.bytes i 0
  | 0x0D08 => nth (facetMasks s) i 0
  | 0x0D0D => s.hbm.scrubPos
  | 0x0D0E => k.ce
  | 0x0D0F => k.ue
  | 0x0D10 => (s.hbm.poisoned.filter (fun l => decide (stackOf s (64 * l) = i))).length
  | 0x0D11 => s.hbm.imbalance
  | 0x0D12 => s.hbm.hotBank
  | _ => k.srExits

def hostPar (s : State) (id i : Nat) : Nat :=
  match id with
  | 0x0E02 => windowBase s
  | 0x0E03 => s.host.downs
  | _ => (dmaCh s i).bytes

def auxPar (s : State) (id i : Nat) : Nat :=
  let e := nth s.aux.entries i {}
  match id with
  | 0x0F03 => flags [(0, s.aux.running), (1, s.aux.stopping), (2, s.aux.entries.any (·.isOpen)), (3, s.aux.ovrSeen), (4, s.aux.gapSeen)]
  | 0x0F04 => s.aux.next / auxL s
  | 0x0F05 => auxPassTime s (i = 1)
  | 0x0F16 => e.result
  | 0x0F17 => flags [(0, e.isOpen), (1, decide (e.settled < 4)), (2, e.ovrSeen)]
  | 0x0F24 =>
    let c := comparator s i
    (match c.st with
      | .below => 0
      | .inside => 1
      | .above => 2) + 4 * b2n c.enabled + 16 * c.sticky
  | 0x0F27 => (comparator s i).edges
  | 0x0F34 =>
    let d := nth s.pdac.dacs i {}
    flags [(0, d.cleared), (1, decide (par s 0x0F36 i = 1)), (2, d.compliance), (3, d.lateSeen), (4, d.complianceSeen), (5, d.held)]
  | _ => uns 64 (nth s.pdac.dacs i {}).measured

def tiuPar (s : State) (id i : Nat) : Nat :=
  let t := nth s.tiu.inputs i {}
  let u := nth s.tiu.stats i {}
  match id with
  | 0x1008 => flags [(0, tiuOn s && decide (par s 0x1001 i = 1)), (1, holdover s), (2, decide (16 ≤ i) && cmpCoarse s (i - 16)), (3, t.deadSeen), (4, t.gapSeen), (5, t.calSeen)]
  | 0x1009 => t.issued
  | 0x100A => t.dead
  | 0x100B => t.fifo.length
  | 0x1018 => u.mean
  | 0x1019 => u.sd
  | 0x101A => u.min
  | 0x101B => u.max
  | 0x101C => u.n
  | _ => u.discards

def hmPar (s : State) (id i : Nat) : Nat :=
  let h := s.health
  match id with
  | 0x1101 => nth h.setpoint i 900
  | 0x1102 => nth h.volts i 0
  | 0x1103 => uns 64 (nth h.temps i 0)
  | 0x1104 => tgetD h.gauges i 0
  | 0x1105 => nth h.factor i 0
  | 0x1106 => nth h.replanF i 0
  | 0x1107 => nth h.current i 0
  | 0x1118 => lifeUsed s
  | 0x1119 => match newestEntry s with
    | some e => fld e 0 4
    | none => 0
  | _ => h.reductions.length

/-- R502: eligible for takeover. -/
def eligible (s : State) : Bool :=
  decide (s.pair.role = 2) && s.pair.sync && runMode s.md.mode && (liveOp s 0x1240).isNone

def pairPar (s : State) (id : Nat) : Nat :=
  let p := s.pair
  match id with
  | 0x1201 => p.role
  | 0x1202 => flags [(0, p.peerLead), (1, p.link), (2, p.peerAlive), (3, p.heartbeat), (4, p.sync), (5, eligible s),
      (6, (liveOp s 0x1240).isSome), (7, p.split)] + 256 * p.lanes
  | 0x1203 => p.term
  | 0x1208 => uns 64 p.offset
  | 0x1209 => p.errors
  | 0x120B => p.shadow.foldl (fun a x => a + x.bytes) 0
  | 0x120C => p.checks
  | 0x120D => p.skipped
  | _ => p.takeover

def secPar (s : State) (id i : Nat) : Nat :=
  match id with
  | 0x1401 => s.sec.counter
  | 0x1402 => match s.sec.debug with
    | some x => 1 + x / 2 * 2
    | none => 0
  | 0x1403 => s.sec.selected + 2 * b2n s.sec.trial
  | 0x1404 => ((verifiedSlot s i).map (·.version)).getD 0
  | _ => nth s.sec.keys i 0

/-- The value of a RW parameter in force at its unit's played ordinal (R70). A per-frame setting is in force from the frame
that takes it; cue sheets and capture units rehearse, and a change at an ordinal that they have not played is not yet in
force there. DEDUCED, see assumption 67: every other unit plays what it takes, as only these two rehearse. -/
def parPlayed (s : State) (id i : Nat) : Nat :=
  let d := du s i
  let sel := streamSel s i (frameRef s i).1.1
  match s.unplayed.find? (fun x => decide (x.1 = id * 65536 + i) && decide (s.cue.played ≤ x.2.1)) with
  | some x => x.2.2
  | none =>
    if decide (id = 0x0B0A) && d.running then d.incr
    else if decide (id = 0x0B0C) && d.running then d.fade
    else if !(stream s i).running then par s id i
    else match id with
      | 0x0709 => sel.1
      | 0x070A => sel.2.1
      | 0x070B => sel.2.2
      | _ => par s id i

/-- The value that GET_PARAM returns for a parameter of a present unit; `m` is a measured value that no row delivers. -/
def readPar (s : State) (m id i : Nat) : Nat :=
  match paramRow id with
  | none => 0
  | some r =>
    if r.acc = .rw && decide (id ≠ 0x1201) then parPlayed s id i
    else match id / 256 with
      | 0x00 => sysPar s id i
      | 0x02 => if id = 0x0201 then s.health.log.length else s.health.overflow
      | 0x04 => convPar s id i
      | 0x05 => clkPar s id i
      | 0x06 => zoomPar s id i
      | 0x07 => xfPar s id i
      | 0x08 => cuePar s id i
      | 0x09 => capPar s id i
      | 0x0A => storePar s id i m
      | 0x0B => dispPar s id i
      | 0x0C => aePar s id i
      | 0x0D => hbmPar s id i
      | 0x0E => hostPar s id i
      | 0x0F => auxPar s id i
      | 0x10 => tiuPar s id i
      | 0x11 => hmPar s id i
      | 0x12 => pairPar s id
      | _ => secPar s id i

end Sys2Proof.Machine
end

