-- ==== Sys2Proof/Machine/Settings.lean ====
section
/-! DEFINITION. GET_PARAM, SET_PARAM and INVENTORY (R4 to R7, R67 to R71, R564): what each parameter refuses, and what
a write of it does. -/
namespace Sys2Proof.Machine

/-! ### Entries (Table 2-9) -/

/-- A parameter entry: parameter, instance, value. -/
abbrev Entry := Nat × Nat × Nat

/-- The entries of a SET_PARAM payload. -/
def setEntries (p : List Byte) : List Entry :=
  (List.range (fld p 0 2)).map (fun k => (fld p (8 + 16 * k) 2, fld p (10 + 16 * k) 2, fld p (16 + 16 * k) 8))

/-- The entries of a GET_PARAM payload. -/
def getEntries (p : List Byte) : List (Nat × Nat) :=
  (List.range (fld p 0 2)).map (fun k => (fld p (8 + 8 * k) 2, fld p (10 + 8 * k) 2))

/-- A parameter ID and an instance of its table. -/
def parKnown (id i : Nat) : Bool :=
  match paramRow id with
  | some r => decide (r.lo ≤ i) && decide (i ≤ r.hi)
  | none => false

/-- The cue channel of the unit that a parameter belongs to (R32). -/
def entryChan (s : State) (id i : Nat) : Nat :=
  match id / 256 with
  | 0x04 => domainOf s i
  | 0x05 => if id = 0x0507 then domainOf s i else cueChan s
  | 0x06 => domainOf s (zoomChan s i)
  | 0x07 => xfChan s i
  | 0x08 => if 0x0820 ≤ id && decide (id < 0x0830) then xfChan s (maskStream s i) else cueChan s
  | 0x0B => if id < 0x0B20 then duChan s i else cueChan s
  | _ => cueChan s

/-- The unit that an entry addresses runs, or the entry starts it (R38). -/
def entryRuns (s : State) (e : Entry) : Bool :=
  let (id, i, v) := e
  running s (entryChan s id i) &&
  match id / 256 with
  | 0x04 => true
  | 0x05 => id = 0x0507 || (decide (0x0520 ≤ id) && (decide (par s 0x0520 i = 1) || id = 0x0520))
  | 0x06 => (nth s.zooms i {}).running || (id = 0x0601 && decide (v = 1))
  | 0x07 => (stream s i).running || (id = 0x0701 && decide (v = 1) && sourceRuns s (par s 0x0702 i))
  | 0x09 => (cap s i).running
  | 0x0B => if id < 0x0B20 then (du s i).running else if id < 0x0B30 then (disp s i).running else (disp s (i / 2)).running
  | 0x0F =>
    if id < 0x0F20 then s.aux.running || id = 0x0F01 else if id < 0x0F30 then (comparator s i).enabled || id = 0x0F20 else true
  | 0x10 => tiuOn s && (id = 0x1001 || decide (0x1010 ≤ id) || decide (par s 0x1001 i = 1))
  | _ => false

/-! ### Writing -/

/-- A write of `pair.role` (R501, R503): a device that is no UNDERSTUDY holds no outputs, and a new role is not
synchronised. -/
def roleWritten (s : State) (v : Nat) : State :=
  if v = s.pair.role then s else
  let s := if v = 2 then s else releaseOutputs s
  { s with pair := { s.pair with role := v, sync := false, split := false } }

/-- A written value in the configuration: parameters that share a setting are written together (R144, R455). The
settings of W1C parameters are elsewhere. -/
def writeEntry (s : State) (e : Entry) : State :=
  let (id, i, v) := e
  match ((paramRow id).map (fun r => r.acc) : Option ParamAccess) with
  | some .rw =>
    if id = 0x0401 then setPar (setPar s id (i / 2 * 2) v) id (i / 2 * 2 + 1) v
    else if id = 0x1201 then roleWritten s v
    else if id = 0x0F36 then
      let span := if v = 1 then 4 else 0
      setPar (setPar (setPar (setPar (setPar s id i v) 0x0F30 i span) 0x0F32 i span) 0x0F31 i 0) 0x0F33 i 0
    else setPar s id i v
  | _ => s

def writeEntries (s : State) (l : List Entry) : State := l.foldl writeEntry s

/-- The W1C bits of a parameter that a write clears (R70). -/
def clearBits (s : State) (e : Entry) : State :=
  let (id, i, v) := e
  let off := fun (n : Nat) (was : Bool) => was && !bit v n
  match id with
  | 0x040A => setChan s i (fun c => { c with ovrSeen := off 2 c.ovrSeen })
  | 0x0503 => setClk s (fun c => { c with refLostSeen := off 10 c.refLostSeen, ppsLostSeen := off 11 c.ppsLostSeen })
  | 0x0504 => setClk s (fun c => { c with plls := lmod c.plls i (fun p => { p with unlockSeen := off 3 p.unlockSeen }) })
  | 0x0620 => setZoom s i (fun z => { z with sat := z.sat &&& (131071 ^^^ (v % 131072)) })
  | 0x0801 => { s with cue := { s.cue with sheets := lmod s.cue.sheets i (fun h =>
      { h with taskOvf := off 11 h.taskOvf, lateSeen := off 12 h.lateSeen }) } }
  | 0x0B28 => setDisp s i (fun d => { d with underrunSeen := off 10 d.underrunSeen, poisonSeen := off 11 d.poisonSeen })
  | 0x0D01 => { s with hbm := { s.hbm with hbmStacks := lmod s.hbm.hbmStacks i (fun k =>
      { k with ceSeen := off 6 k.ceSeen, poisonSeen := off 7 k.poisonSeen }) } }
  | 0x0F03 => { s with aux := { s.aux with ovrSeen := off 3 s.aux.ovrSeen, gapSeen := off 4 s.aux.gapSeen } }
  | 0x0F17 => { s with aux := { s.aux with entries := lmod s.aux.entries i (fun e => { e with ovrSeen := off 2 e.ovrSeen }) } }
  | 0x0F24 => { s with cmps := lmod s.cmps i (fun c => { c with sticky := c.sticky &&& (15 ^^^ (v / 16 % 16)) }) }
  | 0x0F34 => setPdac s i (fun p => { p with lateSeen := off 3 p.lateSeen, complianceSeen := off 4 p.complianceSeen })
  | 0x1008 => setTiuIn s i (fun t => { t with deadSeen := off 3 t.deadSeen, gapSeen := off 4 t.gapSeen, calSeen := off 5 t.calSeen })
  | _ => s

/-! ### What an entry refuses: `UNIT_ABSENT` (R5 to R7) -/

def entryAbsent (s : State) (e : Entry) : Bool :=
  let (id, i, v) := e
  parKnown id i && (parAbsent s id i ||
    match id with
    | 0x0010 => decide (v < 4) && !fitted s.variant 0x01 v
    | 0x0602 => sourceKnown v && sourceAbsent s v
    | 0x0702 => sourceKnown v && sourceAbsent s v
    | 0x0818 => sourceKnown v && sourceAbsent s v
    | 0x0820 => sourceKnown v && sourceAbsent s v
    | 0x0902 => sourceKnown v && sourceAbsent s v
    | 0x0B01 => sourceKnown v && sourceAbsent s v
    | 0x0B31 => decide (1 ≤ v) && decide (v ≤ 4) && !fitted s.variant 0x07 (v - 1)
    | _ => false)

/-! ### What an entry refuses: `BAD_STATE`. `s` is the state now; `t` is the state judged, with every entry written. -/

/-- A zoom becomes unrunnable with a status, or is enabled unrunnable (R173). -/
def zoomCreates (s t : State) (id z v st : Nat) : Bool :=
  let p := if z % 2 = 0 then z + 1 else z - 1
  (decide (zoomFault t z = st) && (decide (zoomFault s z = 0) || (id = 0x0601 && decide (v = 1)))) ||
  (decide (zoomFault t p = st) && decide (zoomFault s p = 0))

def notIdle (s : State) : Bool := s.md.mode ≠ .idle

/-- Classes 0x00, 0x04 and 0x05 (R32, R136, R141, R144, R150). -/
def clockBarred (s t : State) (e : Entry) (at_ : Bool) : Bool :=
  let (id, i, v) := e
  (paired s && i = 1 && ((decide (0x0401 ≤ id) && decide (id ≤ 0x0409)) || id = 0x0507)) ||
  match id with
  | 0x0010 => anyRunning s
  | 0x0401 => (chan s (i / 2 * 2)).running || (chan s (i / 2 * 2 + 1)).running
  | 0x0402 => (chan s i).running
  | 0x0403 => (chan s i).running && !at_
  | 0x0404 => (chan s 0).running || (chan s 1).running ||
      (decide (v = 1) && !(decide (par t 0x0402 0 = 1) && decide (par t 0x0402 1 = 1)))
  | 0x0405 => (chan s i).running
  | 0x0406 => (chan s i).running
  | 0x0407 => (chan s i).running
  | 0x0501 => anyRunning s
  | _ => false

/-- Class 0x06 (R172, R173, R190). -/
def zoomBarred (s t : State) (e : Entry) : Bool :=
  let (id, z, v) := e
  zoomHeld s z ||
  (!([0x0601, 0x0603, 0x0604, 0x0612, 0x0620].contains id) && decide (par s 0x0601 z = 1) && (chan s (zoomChan s z)).running) ||
  (id = 0x0602 && paired s && decide (v = 0x0101)) || zoomCreates s t id z v stBAD_STATE

/-- Class 0x07 (R194, R205, R214, R219, R227). -/
def streamBarred (s t : State) (e : Entry) : Bool :=
  let (id, n, v) := e
  (!([0x0701, 0x0709, 0x070A, 0x070B].contains id) && decide (par s 0x0701 n = 1) && (stream s n).running) ||
  (id = 0x0702 && sourceBarred t v) || (id = 0x0701 && decide (v = 1) && streamFault t n)

/-- Class 0x08 (R141, R227, R229, R230, R247). -/
def cueBarred (s : State) (e : Entry) : Bool :=
  let (id, i, v) := e
  if id < 0x0818 then (id ≠ 0x0801 && id ≠ 0x0806 && anyRunning s)
  else if id < 0x0820 then (decide (par s 0x0818 i ≠ 0) && sourceRuns s (par s 0x0818 i)) || (id = 0x0818 && sourceBarred s v)
  else if id < 0x0830 then (stream s (maskStream s i)).running || (id = 0x0820 && (stream s (v % 256)).running)
  else anyRunning s

/-- Class 0x09 (R257, R258, R263, R265). -/
def captureBarred (s t : State) (e : Entry) : Bool :=
  let (id, u, v) := e
  if id = 0x0901 || id = 0x090C then sourceRuns s (capSrc s u)
  else if id = 0x0911 || id = 0x0912 then notIdle s
  else if id = 0x090D || id = 0x090E then false
  else (cap s u).armed || (id = 0x0902 && sourceBarred t v)

/-- Class 0x0B (R306, R313, R317). -/
def displayBarred (s t : State) (e : Entry) : Bool :=
  let (id, i, v) := e
  if id < 0x0B20 then id ≠ 0x0B0A && id ≠ 0x0B0C && (match duStream s i with
    | some n => (stream s n).running
    | none => false)
  else if id = 0x0B21 || id = 0x0B22 || id = 0x0B23 then decide (par s 0x0B20 i = 1)
  else id = 0x0B30 && decide (v = 1) && planeMismatch t i

/-- Classes 0x0E to 0x10 (R442, R455, R458, R460, R462, R472, R473). -/
def sensorBarred (s t : State) (e : Entry) : Bool :=
  let (id, i, v) := e
  match id with
  | 0x0E01 => notIdle s
  | 0x0F02 => s.aux.running
  | 0x0F10 => s.aux.running
  | 0x0F12 => s.aux.running
  | 0x0F13 => s.aux.running
  | 0x0F14 => s.aux.running
  | 0x0F15 => s.aux.running
  | 0x0F30 => s.pdac.clrLow
  | 0x0F31 => s.pdac.clrLow
  | 0x0F36 => notIdle s
  | 0x1003 => notIdle s
  | 0x1004 => anyRunning s
  | 0x1010 => decide (par s 0x1013 i = 1)
  | 0x1011 => decide (par s 0x1013 i = 1)
  | 0x1012 => decide (par s 0x1013 i = 1)
  | 0x1013 => decide (v = 1) &&
      [par t 0x1010 i, par t 0x1011 i].any (fun x => decide (par t 0x1001 (x % 256) ≠ 1))
  | _ => false

/-- Classes 0x11 to 0x13 (R501, R514). -/
def pairBarred (s : State) (e : Entry) : Bool :=
  let (id, _, v) := e
  match id with
  | 0x1114 => notIdle s
  | 0x1201 => notIdle s || (decide (v = 1) && s.pair.link && s.pair.peerLead)
  | 0x1204 => anyRunning s
  | 0x1206 => notIdle s
  | 0x1207 => notIdle s
  | 0x120A => notIdle s
  | 0x1301 => s.md.mode ≠ .service
  | _ => false

/-- A parameter of the tables that a write does not fail by its access alone; one that does fails step 8 (R70). -/
def parWritable (id : Nat) : Bool :=
  match paramRow id with
  | some r => r.acc ≠ .ro
  | none => false

/-- What an entry refuses with `BAD_STATE`. -/
def entryBarred (s t : State) (at_ : Bool) (e : Entry) : Bool :=
  parKnown e.1 e.2.1 && parWritable e.1 &&
  match e.1 / 256 with
  | 0x00 => clockBarred s t e at_
  | 0x04 => clockBarred s t e at_
  | 0x05 => clockBarred s t e at_
  | 0x06 => zoomBarred s t e
  | 0x07 => streamBarred s t e
  | 0x08 => cueBarred s e
  | 0x09 => captureBarred s t e
  | 0x0B => displayBarred s t e
  | 0x0E => sensorBarred s t e
  | 0x0F => sensorBarred s t e
  | 0x10 => sensorBarred s t e
  | _ => pairBarred s e

/-! ### What an entry refuses: `BAD_PARAM` -/

/-- The bits of a W1C parameter that are not reserved (R13). -/
def statusBits : Nat → Nat
  | 0x040A => 0x33F | 0x0503 => 0xF3F | 0x0504 => 0xFFFF070F | 0x0620 => 0x0F01FFFF | 0x0801 => 0x3FFF
  | 0x0B28 => 0xFFF | 0x0D01 => 0x00FF00FF | 0x0F03 => 0x1F | 0x0F17 => 0x7 | 0x0F24 => 0xF7 | 0x0F34 => 0x3F
  | 0x1008 => 0x3F | _ => 0

/-- A value that the row of its parameter refuses (R68, R70). -/
def rowRefuses (id v : Nat) : Bool :=
  match paramRow id with
  | none => true
  | some r =>
    match r.acc with
    | .ro => true
    | .w1c => decide (v &&& statusBits id ≠ v)
    | .rw => !parWidthOk r v || !parRangeOk r v

/-- A level or route code. -/
def edgeCode (v : Nat) : Bool := decide (0x0500 ≤ v % 65536) && decide (v % 65536 < 0x0520)

/-- The internal source codes of Table 16-1. -/
def internalCode (v : Nat) : Bool :=
  decide (v < 0x12) || (decide (0x20 ≤ v) && decide (v < 0x24)) || (decide (0x40 ≤ v) && decide (v < 0x80)) || decide (v = 0xFF)

/-- The positions that a bin count selects: 0 means all N (R210). -/
def binCount (s : State) (n count : Nat) : Nat := if count = 0 then xfN s n else count

/-- A setting of a stream that its length, mask or marks refuse (R197, R206, R214, R215). -/
def streamRefuses (s t : State) (e : Entry) : Bool :=
  let (id, n, v) := e
  let len := xfN t n
  match id with
  | 0x0702 => !(sourceKnown v && (isChanCode v || isZoomCode v)) || longBroken t n
  | 0x0703 => decide (v = 0) || (setBits 16 v).any (fun u => !fitted s.variant 0x03 u)
  | 0x0704 => longBroken t n || (xfRa t n && xfLong t n) || decide (len < par t 0x070A n + binCount t n (par t 0x070B n))
  | 0x070A => decide (len < v + binCount t n (par t 0x070B n))
  | 0x070B => decide (len < par t 0x070A n + binCount t n v)
  | 0x0720 => !(decide (v ≤ 2) || (decide (16 ≤ v) && decide (v < 32))) || (xfRa t n && xfLong t n)
  | _ => false

/-- `zoom.shift` shifts a stage beyond the depth of its zoom (R179). -/
def shiftBroken (s : State) (z : Nat) : Bool := decide (2 ^ (2 * zoomDepth s z) ≤ par s 0x0612 z)

/-- The settings that a rule ties to others of the same unit. -/
def unitRefuses (s t : State) (e : Entry) : Bool :=
  let (id, i, v) := e
  match id with
  | 0x0610 => (decide (v = 0) && decide (4 ≤ i)) || shiftBroken t i
  | 0x0611 => shiftBroken t i
  | 0x0612 => shiftBroken t i
  | 0x0808 => decide (v % 65536 ≠ 0) && !edgeCode v
  | 0x0818 => !(decide (v = 0) || (sourceKnown v && (isChanCode v || isZoomCode v))) || decide (parI t 0x0819 i < parI t 0x081A i)
  | 0x0819 => decide (parI t 0x0819 i < parI t 0x081A i)
  | 0x081A => decide (parI t 0x0819 i < parI t 0x081A i)
  | 0x0902 => !sourceKnown v
  | 0x0904 => decide (capPreMax t (sheetImages t) i < v)
  | 0x0911 => decide (v % 2 ^ 26 ≠ 0)
  | 0x0912 => decide (v % 2 ^ 30 ≠ 0) || (s.variant ≠ .f && decide (2 ^ 35 < v))
  | 0x0B01 => decide (v ≠ 0) && !(sourceKnown v && decide (v / 256 = 3))
  | 0x0B0F => decide (par t 0x0B0F i ≤ par t 0x0B11 i)
  | 0x0B11 => decide (par t 0x0B0F i ≤ par t 0x0B11 i)
  | 0x0B21 => timingBroken t i
  | 0x0B22 => timingBroken t i || (planesOf i).any (fun p => decide (par t 0x0B30 p = 1) && planeBroken t p)
  | 0x0B23 => timingBroken t i || (planesOf i).any (fun p => decide (par t 0x0B30 p = 1) && planeBroken t p)
  | 0x0B25 => !([1, 2, 4].contains (v % 8)) || decide (bits v 13 12 = 3)
  | 0x0F21 => cmpBroken t i
  | 0x0F22 => cmpBroken t i
  | 0x0F23 => cmpBroken t i
  | 0x0F30 => decide ((par t 0x0F30 i = 4) ≠ (par t 0x0F36 i = 1))
  | 0x0F32 => decide ((par t 0x0F32 i = 4) ≠ (par t 0x0F36 i = 1))
  | 0x1004 => !internalCode v
  | 0x1010 => !edgeCode v
  | 0x1011 => !edgeCode v
  | 0x1112 => decide (v % 10 ≠ 0)
  | 0x1204 => decide (v % 65536 ≠ 0)
  | _ => decide (id / 256 = 0x0B) && decide (0x0B30 ≤ id) && planeBroken t i
where
  planesOf (o : Nat) : List Nat := [2 * o, 2 * o + 1]

/-- An entry that changes its parameter. -/
def altersPar (s : State) (e : Entry) : Bool := decide (par s e.1 e.2.1 ≠ e.2.2)

/-- A gate becomes broken by a write (R166). -/
def gatesRefuse (s t : State) (e : Entry) : Bool :=
  let (id, i, _) := e
  if 0x0520 ≤ id && decide (id < 0x0526) then gateBroken t i
  else if id = 0x0401 || id = 0x0404 || id = 0x0010 then [0, 1].any (fun g => gateBroken t g && !gateBroken s g)
  else false

/-- A trigger output or a capture unit's `cap.pre` becomes too small for its sheets (R250, R265). -/
def sheetsRefuse (s t : State) (e : Entry) : Bool :=
  let cls := e.1 / 256
  decide (4 ≤ cls) && decide (cls ≤ 8) && altersPar s e &&
  (let a := sheetImages s
   (latencyBroken t a && !latencyBroken s a) ||
   (List.range 16).any (fun u => decide (capMargin s a u < capMargin t a u) && decide (capPreMax t a u < par t 0x0904 u)))

/-- What an entry refuses with `BAD_PARAM`. -/
def entryRefuses (s t : State) (e : Entry) : Bool :=
  let (id, i, v) := e
  !parKnown id i || rowRefuses id v || streamRefuses s t e || unitRefuses s t e || gatesRefuse s t e ||
  (decide (id / 256 = 6) && zoomCreates s t id i v stBAD_PARAM) || sheetsRefuse s t e

/-! ### SET_PARAM -/

/-- The state that the entries of a command are judged against: now, or at its cue ordinal. -/
def setBefore (s : State) (l : List Entry) (at_ : Option Nat) : State :=
  match at_, l with
  | some n, e :: _ => asWritten (futureState s (entryChan s e.1 e.2.1) n)
  | _, _ => asWritten s

/-- Position of the first entry that fails a test, as the reply gives it. -/
def failIndex {α : Type} (l : List α) (f : α → Bool) : Nat :=
  let k := (l.takeWhile (fun e => !f e)).length
  if k < l.length then k else 0xFFFF

/-- R263, R214: the rings or the staging do not fit. -/
def setFull (t : State) (l : List Entry) : Bool :=
  (l.any (fun e => e.1 = 0x0901 || e.1 = 0x0911 || e.1 = 0x0912) && wingsFull t) ||
  (l.any (fun e => decide (e.1 / 256 = 7)) && stagingFull t)

/-- An entry that a synchronised UNDERSTUDY refuses (R504). -/
def entryGoverned (s : State) (e : Entry) : Bool :=
  decide (s.pair.role = 2) && s.pair.sync && decide (0x0400 ≤ e.1) && decide (e.1 < 0x1100)

/-- The channel of an entry that a calibration may hold (R129). -/
def entryCal (e : Entry) : Option Nat :=
  if e.1 / 256 = 4 then some (if e.1 = 0x0404 then 0 else e.2.1) else none

/-- The state of a live operation that holds what an entry writes (R82): the channels of a calibration, the pair role of a
`PAIR_RESYNC`, the units of a `SELF_TEST`. -/
def entryHeld (s : State) (e : Entry) : Option OpState :=
  match calHeld s (entryCal e).toList with
  | some x => some x
  | none =>
    if e.1 = 0x1201 then heldBy s [0x1240]
    else if testHolds s e.1 then some .running else none

/-- The state that holds a list of entries: running wins over suspended (R63, steps 10 and 11). -/
def entriesHeld (s : State) (l : List Entry) : Option OpState :=
  let hs := l.filterMap (entryHeld s)
  match hs.find? (fun x => x ≠ .suspended) with
  | some x => some x
  | none => hs.head?

/-- The failing entry index of R69. -/
def setFailIndex (s : State) (at_ : Option Nat) (inst : Nat) (own : List Byte) (step st : Nat) : Nat :=
  let l := setEntries own
  let a := setBefore s l at_
  let t := writeEntries a l
  match step with
    | 5 => failIndex l (entryAbsent s)
    | 7 => failIndex l (fun e => entryBarred s t at_.isSome e || entryGoverned s e)
    | 8 => if own.length ≠ 8 + 16 * fld own 0 2 || inst ≠ 0 || !zeroBytes own 2 6 || decide (254 < l.length) then 0xFFFF
      else failIndex l.zipIdx (fun e => !zeroBytes own (12 + 16 * e.2) 4 || entryRefuses a t e.1)
    | 9 => failIndex l (fun e => let c := entryChan s e.1 e.2.1
        if st = stBAD_STATE then !running s c else !leadOk s c (at_.getD 0))
    | 11 => failIndex l (fun e => (entryHeld s e).isSome)
    | _ => 0xFFFF

/-- The head of a SET_PARAM reply. -/
def setHead_ (own : List Byte) (index : Nat) : List Byte := (own.take 2) ++ leBytes 2 index ++ zeros 4

/-- Reserved bytes of the head and of the entries (R13). -/
def setReserved (own : List Byte) : Bool :=
  zeroBytes own 2 6 && (List.range (fld own 0 2)).all (fun k => zeroBytes own (12 + 16 * k) 4)

def specSetParam (p : Packet) : CmdSpec :=
  let at_ := if pktAt p then some (fld (payloadOf p) 0 8) else none
  { opcode := 0x0003, atOk := true
    len := fun own => decide (8 ≤ own.length) && decide (own.length = 8 + 16 * fld own 0 2)
    absent := fun s _ own => (setEntries own).any (entryAbsent s)
    badState := fun s _ own =>
      let l := setEntries own
      let t := writeEntries (setBefore s l at_) l
      l.any (entryBarred s t at_.isSome)
    badParam := fun s _ own _ =>
      let l := setEntries own
      let a := setBefore s l at_
      l.isEmpty || decide (254 < l.length) || !setReserved own || l.any (entryRefuses a (writeEntries a l))
    chan := fun s _ own => (setEntries own).map (fun e => entryChan s e.1 e.2.1)
    held := fun s _ own => entriesHeld s (setEntries own)
    noSpace := fun s _ own _ =>
      let l := setEntries own
      let a := setBefore s l at_
      let t := writeEntries a l
      setFull t l || overCapacity a t false
    fail := fun s inst own step st => setHead_ own (setFailIndex s at_ inst own step st) }

/-! ### What the entries of a command do -/

/-- Where a change takes effect: the channel and the ordinal, for a unit that runs. -/
abbrev EffectAt := Option (Nat × Nat)

/-- A range change (R136, R137). -/
def rangeChanged (s : State) (i v n : Nat) : State :=
  let span := if paired s && decide (i = 0) then 512 else 256
  let fin := Nat.max (chan s i).stlEnd (n + span)
  let s := setChan s i (fun c => { c with fsInForce := v, stlEnd := fin })
  let s := if paired s && decide (i = 0) then setChan s 1 (fun c => { c with fsInForce := v }) else s
  capRange s i v n (fin - 1)

/-- A zoom is enabled or disabled (R190). -/
def zoomSwitched (s : State) (z v n : Nat) (live : Bool) : State :=
  let x := nth s.zooms z {}
  if v = 0 then
    (if x.running then zoomDisable s z n else setZoom s z (fun x => { x with shed := false }))
  else if !live then s
  else if x.running then (if zoomMay s z then zoomAgain s z n else s)
  else if zoomMay s z then startZoom s z n
  else setZoom s z (fun x => { x with shed := true })

/-- Changes the last of the turns of a stream that wait. -/
def lastStreamTurn (f : StreamTurn → StreamTurn) : List StreamTurn → List StreamTurn
  | [] => []
  | [t] => [f t]
  | t :: l => t :: lastStreamTurn f l

/-- A disable of a stream at ordinal c (R219). -/
def streamDisable (st : Stream) (c : Nat) : Stream :=
  if !st.running then { st with shedStop := false }
  else if st.later.isEmpty then { st with stopAt := some (st.stopAt.getD c) }
  else { st with later := lastStreamTurn (fun t => { t with stop := some (t.stop.getD c) }) st.later }

/-- An enable at ordinal n of a stream that still delivers (R219): at or before its disable it undoes that; after it a new turn
waits for the frames below the disable. -/
def streamAgain (s : State) (k n : Nat) : State :=
  let fresh : StreamTurn := { at_ := n, cfg := streamCfg s k }
  setStream s k (fun st => match st.later.getLast? with
    | none => (match st.stopAt with
      | none => st
      | some c => if n ≤ c then { st with stopAt := none } else { st with later := [fresh] })
    | some t => (match t.stop with
      | none => st
      | some c => if n ≤ c then { st with later := lastStreamTurn (fun t => { t with stop := none }) st.later }
        else { st with later := st.later ++ [fresh] }))

/-- A stream is enabled or disabled (R218, R219). -/
def streamSwitched (s : State) (k v n : Nat) : State :=
  let x := stream s k
  if v = 0 then setStream s k (fun st => streamDisable st n)
  else if !sourceRuns s (par s 0x0702 k) then s
  else if x.running then (if s.md.level < 4 then streamAgain s k n else s)
  else if s.md.level < 4 then startStream s k n
  else setStream s k (fun st => { st with shedStop := true })

/-- The streams that take a gate's pulses as marks begin a new segment (R216). -/
def marksChanged (s : State) (g n : Nat) : State :=
  (List.range 16).foldl (fun s k =>
    if (stream s k).running && decide (xpar s 0x0720 k = g + 1) then
      setStream s k (fun st =>
        let x := st.hops.getLast?.getD { ord := n, hop := st.hop, shed := st.forcedShed, replan := st.forcedReplan }
        { st with hops := st.hops ++ [{ x with ord := n, atMark := true }] })
    else s) s

/-- A capture unit's source changes while the unit is not armed: it leaves the old source and, where the new one runs,
starts on it. DESIGN CHOICE, see assumption 41. -/
def captureMoved (s : State) (u old n : Nat) : State :=
  if old = capSrc s u then s
  else
    let s := if (cap s u).running then capEndUnit s u n else s
    if capSet s u && sourceRuns s (capSrc s u) then capStartUnit s u n else s

/-- A unit of interval statistics is enabled or abandoned (R473). -/
def statSwitched (s : State) (u : Nat) : State :=
  { s with tiu := { s.tiu with stats := lmod s.tiu.stats u (fun x =>
      { x with collecting := false, isOpen := none, n := 0, s1 := 0, s2 := 0, lo := 0, hi := 0 }) } }

/-- What one written entry does beside its value; `was` is the state before the writes, `n` the ordinal where the unit
runs. Entries that act by unit are taken by `unitEffects`. -/
def entryEffect (was s : State) (e : Entry) (at_ : EffectAt) : State :=
  let (id, i, v) := e
  let n := (at_.map (·.2)).getD 0
  match id with
  | 0x0403 => if at_.isSome then rangeChanged s i v n else s
  | 0x0501 => refWritten s
  | 0x0601 => zoomSwitched s i v n (at_.isSome && (chan s (zoomChan s i)).running)
  | 0x0603 => zoomTune s i { ord := n, freq := some (sgn 48 v) }
  | 0x0604 => zoomTune s i { ord := n, phase := some v }
  | 0x0612 => zoomTune s i { ord := n, shift := some v }
  | 0x0701 => streamSwitched s i v n
  | 0x0902 => captureMoved s i (par was 0x0902 i) n
  | 0x0B0A => setDu s i (fun d => if d.running then { d with incrPend := d.incrPend ++ [(n, v)] } else d)
  | 0x0B0C => setDu s i (fun d => if d.running then { d with fadePend := d.fadePend ++ [(n, v)] } else d)
  | 0x0B20 => dispFollow s i
  | 0x0F01 => auxFollow s
  | 0x0F20 => cmpFollow s i
  | 0x0F36 => pdacWired s i
  | 0x1013 => statSwitched s i
  | _ => clearBits s e

/-- The values that the entries of a command write to one parameter instance; the last one counts. -/
def written (l : List Entry) (id i : Nat) : Option Nat :=
  ((l.filter (fun e => decide (e.1 = id) && decide (e.2.1 = i))).getLast?).map (·.2.2)

/-- What the entries for one gate do together (R164, R165, R216). -/
def gateEffect (l : List Entry) (s : State) (g n : Nat) : State :=
  let hit := fun (id : Nat) => (written l id g).isSome
  if !([0x0520, 0x0521, 0x0522, 0x0523, 0x0524, 0x0525] : List Nat).any hit then s
  else
    let s := gateChanged s g n (decide (written l 0x0520 g = some 1)) (hit 0x0524)
    if hit 0x0521 || hit 0x0522 then marksChanged s g n else s

/-- What the entries for one stream's selection do together (R219). -/
def pickEffect (l : List Entry) (s : State) (k n : Nat) : State :=
  if [0x0709, 0x070A, 0x070B].any (fun id => (written l id k).isSome) then streamPick s k n else s

/-- Entries change the span or the code of a precision DAC. -/
def pdacNamed (l : List Entry) (d : Nat) : Bool := (written l 0x0F30 d).isSome || (written l 0x0F31 d).isSome

/-- What the entries for one precision DAC do together (R456, R458); `cue` is the cue ordinal of an AT_ORDINAL command,
`told` says that a part of it is discarded now. -/
def pdacEffect (l : List Entry) (was s : State) (d : Nat) (cue : Option Nat) (tag : Nat) (told : Bool) : State :=
  if !pdacNamed l d then s
  else if cue.isSome && pdacDiscards s d then
    setPar (setPar s 0x0F30 d (par was 0x0F30 d)) 0x0F31 d (par was 0x0F31 d)
  else pdacSchedule s d cue (written l 0x0F30 d) (written l 0x0F31 d) tag told

/-- What the entries for the precision DACs do; a command of which a part is discarded posts that once (Table 1-10). -/
def pdacEffects (l : List Entry) (was s : State) (cue : Option Nat) (tag : Nat) : State :=
  let told := cue.isSome && (List.range 8).any (fun d => pdacNamed l d && pdacDiscards s d)
  let s := (List.range 8).foldl (fun s d => pdacEffect l was s d cue tag told) s
  if told then pdacTell s (cue.getD 0) tag else s

/-- A change at a cue ordinal waits for its unit: a per-frame setting for its frame, a setting of a cue sheet or capture unit
for the played ordinal. -/
def cuedWaits (s : State) (x : Nat × Nat × Nat) : Bool :=
  let (id, i, n) := x
  match id with
  | 0x0B0A => (du s i).incrPend.any (fun p => decide (p.1 = n))
  | 0x0B0C => (du s i).fadePend.any (fun p => decide (p.1 = n))
  | _ =>
    if id / 256 = 7 then (stream s i).running && decide ((frameRef s i).1.1 < n)
    else (id / 256 = 8 || id / 256 = 9) && decide (s.cue.played ≤ n)

/-- Notes the entries that `GET_PARAM` does not show at once (R70): those that a unit takes at a later ordinal. -/
def noteCued (was s : State) (l : List Entry) (ordOf : Nat → Nat) (cue : Option Nat) : State :=
  let late := l.filter (fun e => entryRuns was e && (e.1 / 256 = 8 || e.1 / 256 = 9))
  { s with
    unplayed := s.unplayed.filter (fun x => decide (s.cue.played ≤ x.2.1)) ++
      late.map (fun e => (e.1 * 65536 + e.2.1, ordOf (entryChan was e.1 e.2.1), par was e.1 e.2.1))
    cued := s.cued.filter (cuedWaits s) ++ (match cue with
      | some n => l.map (fun e => (e.1, e.2.1, n))
      | none => []) }

/-- Applies entries: the values first, then what they do. `ordOf` gives the ordinal at which a channel's units take
them. -/
def applyEntries (s : State) (l : List Entry) (ordOf : Nat → Nat) (cue : Option Nat) (tag : Nat) : State :=
  let was := s
  let at_ := fun (e : Entry) => let c := entryChan was e.1 e.2.1
    if entryRuns was e then some (c, ordOf c) else none
  let s := noteCued was (writeEntries s l) l ordOf cue
  let s := l.foldl (fun s e => entryEffect was s e (at_ e)) s
  let s := [0, 1].foldl (fun s g => gateEffect l s g (ordOf (cueChan was))) s
  let s := (List.range 16).foldl (fun s k => pickEffect l s k (ordOf (xfChan was k))) s
  let s := pdacEffects l was s cue tag
  if (demandChanged was s false).isEmpty then s else reshare s

/-- Table 1-10: the first entry of a change that alters a resource's demand. -/
def lowEntry (a : State) (l : List Entry) (r : Nat) : Option Entry :=
  ((List.range l.length).find? (fun k =>
    decide (demandKey (writeEntries a (l.take k)) false r ≠ demandKey (writeEntries a (l.take (k + 1))) false r))).bind (fun k => l[k]?)

/-- The channel that a pending change stands for: the cue channel where an entry lies in it, else the first entry's. -/
def changeChan (s : State) (l : List Entry) : Nat :=
  let cs := l.map (fun e => entryChan s e.1 e.2.1)
  if cs.contains (cueChan s) then cueChan s else cs.headD (cueChan s)

/-- The record of an entry in the reply. -/
def setRecord (s : State) (at_ : Option Nat) (e : Entry) : List Byte :=
  let c := entryChan s e.1 e.2.1
  match at_ with
  | some n => leBytes 8 n ++ leBytes 1 c ++ zeros 7
  | none =>
    if entryRuns s e then leBytes 8 (appliedOrd s c) ++ leBytes 1 c ++ zeros 7
    else leBytes 8 (2 ^ 64 - 1) ++ leBytes 1 0xFF ++ zeros 7

def runSetParam (s : State) (p : Packet) (_ : Nat) (own : List Byte) (at_ : Option Nat) : Ran :=
  let l := setEntries own
  let a := setBefore s l at_
  let low := lowAfter a (writeEntries a l) false
  let out := setHead_ own 0xFFFF ++ (l.map (setRecord s at_)).flatten
  let stamp := fun (r : Nat) => (lowEntry a l r).bind (fun e =>
    let c := entryChan s e.1 e.2.1
    if running s c then some (c, at_.getD (appliedOrd s c)) else none)
  let s' := match at_ with
    | some n => schedule s p 0x0003 (changeChan s l) n (.params l)
    | none => applyEntries s l (appliedOrd s) none p.tag.toNat
  (stOK, out, low.foldl (fun s x => raise s 0x0211 x.1 (uns 32 x.2) (stamp x.1)) s')

/-- SET_PARAM. -/
def execSetParam (p : Packet) (s : State) : Host.Outcome State Fault Refusal := .next (runPacket (specSetParam p) runSetParam p s)

/-! ### GET_PARAM (R6, R67, R70) -/

/-- A scheduled change names a parameter instance, or its unit has not reached one that has arrived. -/
def parPending (s : State) (id i : Nat) : Bool :=
  s.pend.any (fun c => match c.act with
    | .params l => l.any (fun e => decide (e.1 = id) && decide (e.2.1 = i))
    | _ => false) ||
  s.cued.any (fun x => decide (x.1 = id) && decide (x.2.1 = i) && cuedWaits s x)

def specGetParam : CmdSpec :=
  { opcode := 0x0002
    len := fun p => decide (8 ≤ p.length) && decide (p.length = 8 + 8 * fld p 0 2)
    badParam := fun _ _ p _ =>
      let l := getEntries p
      l.isEmpty || decide (254 < l.length) || !zeroBytes p 2 6 ||
      !(List.range l.length).all (fun k => zeroBytes p (12 + 8 * k) 4) || l.any (fun e => !parKnown e.1 e.2) }

/-- An entry of the reply; `m` stands for a measured value. -/
def getRecord (s : State) (m : Nat) (e : Nat × Nat) : List Byte :=
  let gone := parAbsent s e.1 e.2
  leBytes 2 e.1 ++ leBytes 2 e.2 ++ leBytes 1 (b2n gone + 2 * b2n (parPending s e.1 e.2)) ++ zeros 3 ++
    leBytes 8 (if gone then 0 else readPar s m e.1 e.2)

/-- `clk.holdover_time` counts on, in ms (R156); what has passed since it was last read is a free value. -/
def holdCount (s : State) (m : Nat) : State :=
  if holdover s && s.md.mode ≠ .boot then setClk s (fun c => { c with holdMs := satU 32 (c.holdMs + m) }) else s

def runGetParam (s : State) (_ : Packet) (_ : Nat) (p : List Byte) (_ : Option Nat) : Ran :=
  let (m, s) := takeFree s
  let s := holdCount s m
  (stOK, leBytes 2 (fld p 0 2) ++ zeros 6 ++ ((getEntries p).map (getRecord s m)).flatten, s)

/-- GET_PARAM. -/
def execGetParam (p : Packet) (s : State) : Host.Outcome State Fault Refusal := .next (runPacket specGetParam runGetParam p s)

/-! ### INVENTORY (R4, R71) -/

def specInventory : CmdSpec := { opcode := 0x0001 }

/-- One kind record of Table 2-11. -/
def kindRecord (v : Variant) (k : Nat) : List Byte :=
  leBytes 2 k ++ leBytes 2 (fittedList v k).length ++ leBytes 2 (kindWidth k) ++ zeros 2 ++ leBytes 32 (bitmapOf (fittedList v k))

def inventoryBytes (s : State) : List Byte :=
  leBytes 2 (variantCode s.variant) ++ leBytes 2 s.die ++ leBytes 4 (if s.md.romServes then 0 else s.sec.firmware) ++
  leBytes 8 s.serial ++ leBytes 2 23 ++ zeros 6 ++ ((List.range 23).map (fun j => kindRecord s.variant (j + 1))).flatten

def runInventory (s : State) (_ : Packet) (_ : Nat) (_ : List Byte) (_ : Option Nat) : Ran := (stOK, inventoryBytes s, s)

/-- INVENTORY. -/
def execInventory (p : Packet) (s : State) : Host.Outcome State Fault Refusal := .next (runPacket specInventory runInventory p s)

end Sys2Proof.Machine
end

