-- ==== Sys2Proof/Machine/PairAlign.lean ====
section
/-! DEFINITION. Alignment of a redundant pair (R506 to R508) and the steps of PAIR_RESYNC (R522). -/
namespace Sys2Proof.Machine

def setPair (s : State) (f : PairUnit → PairUnit) : State := { s with pair := f s.pair }

/-- Sends a message to the peer while the link is up (R511). -/
def sendPair (s : State) (type : Nat) (data : List Nat) : State := if s.pair.link then emit s (.link type data) else s

/-! ### Start and marker pulses (R507, steps 1 and 2) -/

/-- Inserts a pulse among those of an output, in order of their rises. -/
def insertPulse (p : Nat × Nat) : List (Nat × Nat) → List (Nat × Nat)
  | [] => [p]
  | q :: l => if p.1 < q.1 then p :: q :: l else q :: insertPulse p l

/-- Schedules the sixteen marker pulses from an ordinal, a multiple of 2^24. -/
def markPulses (s : State) (first : Nat) : State :=
  let w := nsToOrd s (cueChan s) 1000
  let s := setPair s (fun p => { p with markFirst := first, heard := [] })
  { s with cue := { s.cue with trg := lmod s.cue.trg (par s 0x1206 0) (fun t =>
    { t with queue := (List.range 16).foldl (fun q j => insertPulse (first + 2 ^ 24 * j, first + 2 ^ 24 * j + w) q) t.queue }) } }

/-- A `START` would be refused in the configuration in force. -/
def startRefused (s : State) : Bool := startBarred s || startBad s || startBusy s || startFull s

/-- E of an alignment (R507, step 5). -/
def alignOrd (s : State) : Nat := alignUp (2 ^ 24 * 17 + schedLead s (cueChan s)) (2 ^ 26)

/-- The good edge of the start second has come: the channels start with it. A start that is refused ends the
alignment. -/
def alignStart (s : State) : State :=
  if startRefused s then setPair s (fun p => { p with aligning := none })
  else
    let s := startConverters s (startSet s) s.tiu.ppsTime
    markPulses (setPair s (fun p => { p with started := true, mine := none, theirs := none, e := some (alignOrd s) })) (2 ^ 24)

/-- PPS_EDGE (R161, R162, R467); the edge of a start second starts the channels (R507). -/
def execPpsEdge (intervalNs : Nat) (st : RawStamp) (elapsedS : Nat) (s : State) (sinceSetNs : Nat := 10000000) :
    Host.Outcome State Fault Refusal :=
  let t := ppsEdge intervalNs st elapsedS sinceSetNs s
  .next (if ppsGoodEdge intervalNs && !t.pair.started && decide (t.pair.aligning = some t.clk.seconds) &&
      decide (t.pair.aligning ≠ none) then alignStart t else t)

/-! ### The offset (R507, steps 3 and 4) -/

/-- round(x / d), half up. -/
def roundDiv (x : Int) (d : Nat) : Int := (2 * x + (d : Int)) / (2 * (d : Int))

/-- Whole ordinals of δ by which an UNDERSTUDY renumbers. -/
def wholeShift (delta : Int) : Int := if delta.natAbs < 2 ^ 15 then 0 else roundDiv delta (2 ^ 16)

/-- The ordinals of every running channel move by -k cue ordinals, each in its own rate. -/
def renumber (s : State) (k : Int) : State :=
  let move := fun (n : Nat) (c : Nat) => ((n : Int) - roundDiv (k * (par s 0x0401 c : Int)) (ordRate s (cueChan s))).toNat
  { s with chans := (s.chans.zipIdx).map (fun x => if x.1.running then { x.1 with count := move x.1.count x.2 } else x.1)
           tiu := { s.tiu with ticks := none } }

/-- Steps of `clk.phase` of a converter's clock output for the residual fraction of δ (R158). -/
def phaseSteps (s : State) (o : Nat) (delta : Int) : Int :=
  let rest := delta - wholeShift delta * 65536
  roundDiv (rest * ((vcoMhz s (o / 2) * 1024 : Nat) : Int)) (65536 * 1000 * Nat.max 1 (ordRate s (cueChan s)))

/-- Both means are known: δ; an UNDERSTUDY renumbers. In a resynchronisation E is fixed then (R522, step 4). -/
def alignOffset (s : State) : State :=
  match s.pair.mine, s.pair.theirs with
  | some m, some t =>
    let delta := if s.pair.role = 2 then (m - t) / 2 else (t - m) / 2
    let s := setPair s (fun p => { p with offset := delta })
    let s := if s.pair.role = 2 then renumber s (wholeShift delta) else s
    if s.pair.e.isSome then s
    else setPair s (fun p => { p with e := some (alignUp (ordNext s (cueChan s) + cdiv (ordRate s (cueChan s)) 100) (2 ^ 26)) })
  | _, _ => s

/-- The mean of b - a over the sixteen pulses, in 2^-16 ordinals: a the ordinals of this device's own, b those assigned to the
peer's. -/
def meanHeard (s : State) : Int :=
  let a := (List.range 16).map (fun j => (s.pair.markFirst + 2 ^ 24 * j) * 65536)
  ((s.pair.heard.foldl (· + ·) 0 : Nat) - (a.foldl (· + ·) 0 : Nat) : Int) / 16

/-- ALIGN: the mean over this device's own stamps of the peer's pulses, which it sends once it has all sixteen, or the peer's mean arriving. A
running LEAD begins its pulses at the first message of a resynchronisation. -/
def execAlign (mine : Bool) (mean : Int) (s : State) : Host.Outcome State Fault Refusal :=
  .next (if s.pair.role = 0 || !s.pair.link then s
    else if !s.pair.started then
      (if mine || s.pair.role ≠ 1 || !anyRunning s || s.pair.sync || s.pair.aligning.isSome then s
       else markPulses (setPair s (fun p => { p with aligning := some 0, started := true, mine := none, theirs := none, e := none }))
         (alignUp (ordNext s (cueChan s) + schedLead s (cueChan s)) (2 ^ 24)))
    else if mine then
      (if s.pair.mine.isSome || decide (s.pair.heard.length < 16) then s
       else alignOffset (sendPair (setPair s (fun p => { p with mine := some (meanHeard s) })) 6 [uns 64 (meanHeard s)]))
    else if s.pair.theirs.isSome then s
    else alignOffset (setPair s (fun p => { p with theirs := some mean })))

/-! ### E (R507, step 5) -/

/-- The device is synchronised from here on (R502); an UNDERSTUDY holds its outputs (R503). -/
def gainSync (s : State) : State :=
  let s := raise (setPair s (fun p => { p with sync := true, lostBy := 0 })) 0x1205 0 1 (cueNow s)
  if s.pair.role = 2 then holdOutputs (reshare s) else s

/-- The alignment can end: E has been reached and δ is known. -/
def alignReady (s : State) : Bool :=
  s.pair.started && s.pair.mine.isSome && s.pair.theirs.isSome &&
  (match s.pair.e with
   | some e => running s (cueChan s) && decide (e ≤ ordNext s (cueChan s))
   | none => false)

/-- The channels that extents cover in turn (R514). -/
def extentChans (s : State) : List Nat := (List.range 4).filter (fun k => (chan s k).running && decide (domainOf s k = k))

/-- What happens at E: every downstream block starts, but those of a LEAD that has been running. -/
def alignDone (s : State) : State :=
  let n := s.pair.e.getD 0
  let was := s.pair.role = 1 && decide (s.pair.aligning = some 0)
  let s := if s.pair.role = 2 then
      (List.range 4).foldl (fun s o => setPar s 0x0507 o
        (uns 32 (max (-32768) (min 32767 (parI s 0x0507 o + phaseSteps s o s.pair.offset))))) s
    else s
  let s := if was then s else reshare (startBlocks s ((List.range 4).filter (fun c => (chan s c).running)) n)
  let s := setPair s (fun p => { p with
    aligning := none, started := false, e := none, nextX := n, checkChan := (extentChans s).headD 0, draft := none, shadow := []
    play := List.replicate 16 0, confirmed := List.replicate 16 0 })
  gainSync (raise s 0x1204 0 (uns 32 s.pair.offset) (some (cueChan s, n)))

/-- Ends the alignment when it is due. -/
def alignDue (s : State) : State := if alignReady s then alignDone s else s

/-- PAIR_ALIGNED. -/
def execPairAligned (s : State) : Host.Outcome State Fault Refusal := .next (alignDue s)

/-! ### PAIR_ALIGN (R506) -/

/-- The LEAD and its peer can be aligned: same mode, everything stopped, PPS_IN qualified, REFIN in use. -/
def alignable (s : State) : Bool :=
  decide (s.pair.role = 1) && s.pair.link && decide (s.pair.peerRole = 2) && decide (s.pair.peerMode = modeCode s.md.mode) &&
  !anyRunning s && !s.pair.peerRuns && s.clk.ppsQual && s.pair.peerPps && decide (s.clk.source = 1)

/-- The second lies less than 100 ms ahead. Between edges the device knows its own time; here that is a free value. -/
def tooSoon (s : State) (sec : Nat) : Bool :=
  decide (sec ≤ s.clk.seconds) || (decide (sec = s.clk.seconds + 1) && decide (Config.free s.fresh % 2 = 0))

def specPairAlign : CmdSpec :=
  { opcode := 0x1250, modes := [.analyse, .record], len := fun p => decide (p.length = 8), badState := fun s _ _ => !alignable s
    badParam := fun s _ p _ => !zeroBytes p 6 2 || tooSoon s (fld p 0 6) }

/-- The command is forwarded, and both devices wait for the edge. -/
def runPairAlign (s : State) (p : Packet) (_ : Nat) (pl : List Byte) (_ : Option Nat) : Ran :=
  (stOK, [], emit (setPair s (fun x => { x with aligning := some (fld pl 0 6), started := false, sync := false, lostBy := 0 })) (.linkConfig 0x1250 p))

/-- PAIR_ALIGN. Each command samples the time afresh. -/
def execPairAlign (p : Packet) (s : State) : Host.Outcome State Fault Refusal :=
  let s' := runPacket specPairAlign runPairAlign p s
  .next { s' with fresh := s'.fresh + 1 }

/-! ### PAIR_RESYNC (R522) -/

/-- The mode that the peer reports is ANALYSE or RECORD. -/
def peerRunMode (s : State) : Option Mode :=
  match modeOf s.pair.peerMode with
  | some m => if runMode m then some m else none
  | none => none

def specPairResync : CmdSpec :=
  { opcode := 0x1240, modes := [.idle], starts := true
    badState := fun s _ _ => !(decide (s.pair.role = 2) && s.pair.link && decide (s.pair.peerRole = 1) && (peerRunMode s).isSome)
    held := fun s _ _ => heldBy s [0x1240] }

def runPairResync (s : State) (p : Packet) (_ : Nat) (_ : List Byte) (_ : Option Nat) : Ran :=
  let (h, s) := startOp s 0x1240 0 p.tag.toNat 4 {}
  (stACCEPTED, leBytes 4 h, reshareCheck s (setPair s (fun p => { p with sync := false, aligning := none, started := false, e := none })))

/-- PAIR_RESYNC. -/
def execPairResync (p : Packet) (s : State) : Host.Outcome State Fault Refusal := .next (runPacket specPairResync runPairResync p s)

/-- What is left when the operation does not succeed: unsynchronised and ineligible. -/
def resyncDrop (s : State) : State :=
  reshareCheck s (setPair s (fun p => { p with sync := false, aligning := none, started := false, e := none }))

/-- The operation fails. -/
def resyncFail (s : State) (h st : Nat) : State := enterOpState (setOp (resyncDrop s) h (fun o => { o with failed := st })) h .failed

/-- One step of the operation. -/
def resyncStep (s : State) (o : LongOp) (f : StepFacts) : State :=
  let next := fun (s : State) => setOp s o.handle (fun o => { o with done := o.done + 1 })
  match f with
  | .failed st => resyncFail s o.handle st
  | .done =>
    if o.done = 0 then next s
    else if o.done = 1 then
      match peerRunMode s with
      | none => resyncFail s o.handle stBAD_STATE
      | some t =>
        if modeUnfit s t then resyncFail s o.handle stBAD_STATE
        else
          let s := arriveMode s t 0
          if startRefused s then resyncFail s o.handle stBAD_STATE
          else
            let (at_, s) := takeFree s
            let s := startConverters s (startSet s) at_
            let s := setPair s (fun p => { p with aligning := some 0, started := true, mine := none, theirs := none, e := none })
            next (sendPair (markPulses s (2 ^ 24)) 6 [0])
    else if o.done = 2 then (if s.pair.e.isSome then next s else s)
    else if !s.pair.sync then s
    else
      let s := emit (setPair s (fun p => { p with term := p.peerTerm })) (.flashTerm s.pair.peerTerm)
      enterOpState (next s) o.handle .done
  | _ => s

end Sys2Proof.Machine
end

