-- ==== Sys2Proof/Machine/CuePoints.lean ====
section
/-! DEFINITION. Cue points (R34 to R37): an accepted AT_ORDINAL change applies when its cue ordinal arrives, before the
sample of that ordinal is taken. -/
namespace Sys2Proof.Machine

/-- The cue ordinal of a change has arrived in a channel's domain. -/
def arrived (s : State) (c ord : Nat) : Bool := running s c && decide (ord ≤ ordNext s c)

/-- The entries of a change whose channels have reached its cue ordinal, and the others. -/
def splitEntries (s : State) (ord : Nat) (l : List Entry) : List Entry × List Entry :=
  l.partition (fun e => arrived s (entryChan s e.1 e.2.1) ord)

/-- Something of a change is due. -/
def changeDue (s : State) (x : PendChange) : Bool :=
  match x.act with
  | .params l => !(splitEntries s x.ord l).1.isEmpty
  | _ => arrived s x.chan x.ord

/-- What a change does at its cue ordinal. -/
def applyChange (s : State) (x : PendChange) : State :=
  match x.act with
  | .params l => applyEntries s (splitEntries s x.ord l).1 (fun _ => x.ord) (some x.ord) x.tag
  | .mode t => modeDue s t
  | .stop => stopAt s x.ord
  | .cueTask sheets input => hostTask s sheets input x.ord false
  | .cueHost code => hostItemAt s code x.ord false
  | .maskSwap m => { s with cue := { s.cue with masks := lmod s.cue.masks m (fun k => { k with swapAt := some x.ord }) } }
  | .capArm units => (setBits 16 units).foldl (fun s u => capArmNow s u x.ord) s
  | .capDisarm units => (setBits 16 units).foldl (fun s u => capDisarmNow s u x.ord) s
  | .duSwap u => setDu s u (fun d => { d with swapPend := some x.ord })
  | .duClear u => setDu s u (fun d => { d with clearPend := d.clearPend ++ [x.ord] })
  | .aeStart p => aeStartDue s p x.ord

/-- What stays of a change once what is due has been applied. -/
def changeRest (s : State) (x : PendChange) : List PendChange :=
  match x.act with
  | .params l =>
    let r := (splitEntries s x.ord l).2
    if r.isEmpty then [] else [{ x with chan := changeChan s r, act := .params r }]
  | _ => []

/-- Of the changes that are due, the one of the lowest cue ordinal, and of several the first accepted (R36). -/
def firstDue (s : State) : Option PendChange :=
  (s.pend.filter (changeDue s)).foldl (fun best x => match best with
    | none => some x
    | some y => if x.ord < y.ord then some x else some y) none

/-- Applies one change that is due. -/
def cuePoint (s : State) : State :=
  match firstDue s with
  | none => s
  | some x =>
    let at_ := s.pend.takeWhile (fun y => decide (y ≠ x))
    let s' := { s with pend := at_ ++ changeRest s x ++ (s.pend.drop (at_.length + 1)) }
    applyChange s' x

/-- Applies every change that is due. -/
def cuePoints : Nat → State → State
  | 0, s => s
  | k + 1, s => if (firstDue s).isNone then s else cuePoints k (cuePoint s)

/-- CUE_POINT_APPLY. -/
def execCuePointApply (s : State) : Host.Outcome State Fault Refusal := .next (cuePoint s)

/-- What is due before the next sample: E of an alignment, and changes at their cue ordinal. -/
def meetDue (s : State) : State := cuePoints (2 * s.pend.length) (alignDue s)

/-- The markers that a channel's buffer gives up; then a `STOP` that every channel has reached is carried out. -/
def afterSample (s : State) (d : Nat) : State :=
  stopTry (channelMarkers meetDue d ((chan s d).buf.ended.length + 1) s)

/-- SAMPLE_WORD: what is due at this sample's ordinal happens first. -/
def execSampleWord (c : Fin 4) (code : BitVec 12) (ovr : Bool) (s : State) : Host.Outcome State Fault Refusal :=
  .next (if !sampleOpen s c || replaying s then s
    else
      let s := meetDue s
      if sampleOpen s c then afterSample (sampleTake s c code ovr) (domainOf s c) else s)

/-! ### Gaps (R18, R24, R25) -/

/-- The depth of the buffer of a channel's domain (Table 1-3). -/
def bufDepth (s : State) (d : Nat) : Nat := if paired s && decide (d = 0) then 131072 else 65536

/-- The samples that a buffer holds when the next to leave it has ordinal `next` and the next to enter it `n`. -/
def bufHeld (b : ProducerBuf) (next n : Nat) : Nat := n - next - (b.ended.map (fun x => x.2 + 1 - x.1)).sum

/-- The last ordinal of a gap that ends below `resume`: a `STOP` whose cue ordinal lies within the gap ends it there (R24). -/
def gapLast (s : State) (d f resume : Nat) : Nat :=
  let stops := (s.pend.filter (fun x => decide (x.chan = d) && decide (x.act = .stop) && decide (f < x.ord) && decide (x.ord ≤ resume))).map (·.ord)
  stops.foldl Nat.min resume - 1

/-- PRODUCER_BUFFER_FULL: the sample, result or stamp numbered `first` finds its buffer full; data is discarded from the
start of its block of 64 (R18, R24). -/
def execProducerBufferFull (p : Producer) (first : Nat) (s : State) : Host.Outcome State Fault Refusal :=
  .next (match p with
  | .channel c =>
    let b := (chan s c).buf
    if (chan s c).running && !replaying s && decide (domainOf s c = c.val) && b.dropping.isNone &&
        decide (bufHeld b (ordNext s c) first = bufDepth s c) then
      setChan s c (fun ch => { ch with buf := { ch.buf with dropping := some (first / 64 * 64), found := first } })
    else s
  | .aux =>
    if s.aux.running && s.aux.buf.dropping.isNone && decide (bufHeld s.aux.buf s.aux.next first = 4096) then
      { s with aux := { s.aux with buf := { s.aux.buf with dropping := some (first / 64 * 64), found := first } } }
    else s
  | .tiu i => if (nth s.tiu.inputs i {}).issued = first then tiuOverflow s i else s)

/-- GAP: a buffer has drained to half its depth, and what follows is taken from `resume`, the next block boundary, on; the
marker is inserted at the place of the lost data (R24, R25). -/
def execGap (p : Producer) (resume : Nat) (s : State) : Host.Outcome State Fault Refusal :=
  .next (match p with
  | .channel c =>
    match (chan s c).buf.dropping with
    | none => s
    | some f =>
      if decide (bufHeld (chan s c).buf (ordNext s c) f ≤ bufDepth s c / 2) && decide ((chan s c).buf.found < resume) && decide (resume % 64 = 0) then
        afterSample (loseSync (channelGap s c f (gapLast s c f resume)) 3) c
      else s
  | .aux =>
    match s.aux.buf.dropping with
    | none => s
    | some f =>
      if decide (bufHeld s.aux.buf s.aux.next f ≤ 2048) && decide (s.aux.buf.found < resume) && decide (resume % 64 = 0) then
        let s := loseSync (auxGap s f (resume - 1)) 3
        auxMarkers s.aux.buf.ended.length s
      else s
  | .tiu i =>
    let x := nth s.tiu.inputs i {}
    match x.dropping with
    | none => s
    | some f =>
      if decide (x.fifo.length ≤ 256) && decide (f < resume) && decide (resume % 64 = 0) && decide (x.issued = resume) then
        loseSync (tiuGap s i f (resume - 1)) 3
      else s)

end Sys2Proof.Machine
end

