-- ==== Sys2Proof/Machine/Rings.lean ====
section
/-! DEFINITION. Writes of the control window, of the ring window and of the mailboxes (R50 to R55, R84 to R89, R414 to
R422), and CLEAR_EVENTS (R75). -/
namespace Sys2Proof.Machine

/-- The registers answer: the device is powered and out of reset (R419). -/
def regsServed (s : State) : Bool := s.md.powered && !s.md.rstLow

/-- A write that registers take. -/
def onRegs (s : State) (t : State) : Host.Outcome State Fault Refusal := .next (if regsServed s then t else s)

/-! ### The rings (R51) -/

def cfgErr (s : State) : State := setRingStatus s s.ring.cfgErr (fun r => { r with cfgErr := true })
def headErr (s : State) : State := setRingStatus s s.ring.headErr (fun r => { r with headErr := true })
def doorbellErr (s : State) : State := setRingStatus s s.ring.doorbellErr (fun r => { r with doorbellErr := true })

/-- A size field and a base that a ring can be enabled with. -/
def ringFit (size base top : Nat) : Bool := decide (6 ≤ size) && decide (size ≤ top) && decide (base % 4096 = 0)

/-- A write to CMD_DOORBELL. -/
def doorbell (s : State) (v : Nat) : State :=
  let s := if s.md.mode = .dormant then fireWake s 5 none else s
  if !s.ring.cmdEn then s
  else if 4096 ≤ v || ringCount s.ring.cmdSize ≤ v then doorbellErr s
  else { s with ring := { s.ring with doorbell := v } }

/-- CMD_DOORBELL. Where the packet then found at CMD_HEAD has an opcode that no row has, it comes with the doorbell, and it
is read as soon as it can be (R61). -/
def execCmdDoorbell (v : W64) (s : State) (undefined : Option (BitVec 16 × Packet) := none) : Host.Outcome State Fault Refusal :=
  let t := doorbell s v.toNat
  onRegs s (match undefined with
    | none => t
    | some (op, p) => undefinedInRing t op.toNat p)

/-- CMD_RESYNC (Table 2-2). -/
def resync (s : State) : State := { s with ring := { s.ring with cmdHead := s.ring.doorbell, cmdHalt := false } }

def execCmdResync (s : State) : Host.Outcome State Fault Refusal := onRegs s (resync s)

/-- Writes CMD_EN. -/
def writeCmdEn (s : State) (v : Bool) : State :=
  if v = s.ring.cmdEn then s
  else if !v then { s with ring := { s.ring with cmdEn := false } }
  else if ringFit s.ring.cmdSize s.ring.cmdBase 12 then
    { s with ring := { s.ring with cmdEn := true, cmdHead := 0, doorbell := 0 } }
  else cfgErr s

def execCmdEn (v : Bool) (s : State) : Host.Outcome State Fault Refusal := onRegs s (writeCmdEn s v)

/-- Writes RPL_EN. -/
def writeRplEn (s : State) (v : Bool) : State :=
  if v = s.ring.rplEn then s
  else if !v then rplDisable s
  else if ringFit s.ring.rplSize s.ring.rplBase 12 then
    { s with ring := { s.ring with rplEn := true, rplHead := 0, rplTail := 0 } }
  else cfgErr s

def execRplEn (v : Bool) (s : State) : Host.Outcome State Fault Refusal := onRegs s (writeRplEn s v)

/-- Writes EVT_EN. -/
def writeEvtEn (s : State) (v : Bool) : State :=
  if v = s.ring.evtEn then s
  else if !v then { s with ring := { s.ring with evtEn := false } }
  else if ringFit s.ring.evtSize s.ring.evtBase 16 then
    { s with ring := { s.ring with evtEn := true, evtHead := 0, evtTail := 0 } }
  else cfgErr s

def execEvtEn (v : Bool) (s : State) : Host.Outcome State Fault Refusal := onRegs s (writeEvtEn s v)

/-- Writes RPL_HEAD. -/
def writeRplHead (s : State) (v : Nat) : State :=
  if ringCount s.ring.rplSize ≤ v then headErr s else { s with ring := { s.ring with rplHead := v } }

def execRplHead (v : W64) (s : State) : Host.Outcome State Fault Refusal := onRegs s (writeRplHead s v.toNat)

/-- Writes EVT_HEAD. -/
def writeEvtHead (s : State) (v : Nat) : State :=
  if evtCount s.ring ≤ v then headErr s else { s with ring := { s.ring with evtHead := v } }

def execEvtHead (v : W64) (s : State) : Host.Outcome State Fault Refusal := onRegs s (writeEvtHead s v.toNat)

/-! ### Mailboxes (R84 to R89) -/

/-- A write to MBX_CTRL (Table 2-18): RPL_ACK first, then GO. -/
def mbxCtrl (s : State) (m : Mbx) (ack go : Bool) : State :=
  let s := if ack then setMbx s m (fun b => { b with rplReady := false, rplBuf := [] }) else s
  if !go then s
  else if (mbx s m).busy || (mbx s m).rplReady then setMbx s m (fun b => { b with goRejected := true })
  else undefinedOpcode (setMbx s m (fun b => { b with busy := true })) m

/-- GO, with RPL_ACK set in the same write or not. -/
def execGo (m : Mbx) (ack : Bool) (s : State) : Host.Outcome State Fault Refusal := onRegs s (mbxCtrl s m ack true)

/-- RPL_ACK. -/
def execRplAck (m : Mbx) (s : State) : Host.Outcome State Fault Refusal := onRegs s (mbxCtrl s m true false)

/-- A read of byte 0x202F removes the oldest entry of the FIFO. -/
def fifoPop (s : State) (m : Mbx) : State := setMbx s m (fun b => { b with fifo := b.fifo.drop 1 })


/-- MBX_STATUS (Table 2-19). -/
def mbxStatus (b : Mailbox) : Nat :=
  flags [(0, b.busy), (1, b.rplReady), (2, b.goRejected), (3, b.pecErr), (4, !b.fifo.isEmpty), (5, b.evtLostFlag)] +
    65536 * b.fifo.length

/-- A byte of the mailbox map (Table 2-17). -/
def mbxByte (b : Mailbox) (a : Nat) : Byte :=
  if a < 0x1000 then memGet b.cmdBuf a
  else if a < 0x2000 then nth b.rplBuf (a - 0x1000) 0
  else if a < 0x2004 then 0
  else if a < 0x2008 then nth (leBytes 4 (mbxStatus b)) (a - 0x2004) 0
  else if a < 0x200C then nth (leBytes 4 b.lost) (a - 0x2008) 0
  else if a < 0x2010 then 0
  else if a < 0x2030 then (match b.fifo with
    | [] => 0
    | e :: _ => nth (eventBytes e) (a - 0x2010) 0)
  else 0

/-- The bytes that a read of the mailbox map from an address gives. -/
def mbxBytes (b : Mailbox) (a n : Nat) : List Byte := (List.range n).map (fun i => mbxByte b ((a + i) % 65536))

/-- A read removes the oldest entry when it takes byte 0x202F. -/
def readRemoves (s : State) (m : Mbx) (a n : Nat) : State :=
  if a ≤ 0x202F && decide (0x202F < a + n) then fifoPop s m else s

/-- EVT_WINDOW_REMOVE: a read of byte 0x202F of a mailbox, alone. -/
def execEvtWindowRemove (m : Mbx) (s : State) : Host.Outcome State Fault Refusal := onRegs s (readRemoves s m 0x202F 1)

/-- One byte written to the mailbox map. -/
def mbxWriteByte (s : State) (m : Mbx) (a : Nat) (v : Byte) : State :=
  if a < 0x1000 then setMbx s m (fun b => { b with cmdBuf := memPut b.cmdBuf a v })
  else if a = 0x2000 then mbxCtrl s m (v.getLsbD 1) (v.getLsbD 0)
  else if a = 0x2004 then
    setMbx s m (fun b => { b with
      goRejected := b.goRejected && !v.getLsbD 2, pecErr := b.pecErr && !v.getLsbD 3, evtLostFlag := b.evtLostFlag && !v.getLsbD 5 })
  else s

/-- Bytes written at ascending addresses. -/
def mbxWrite (s : State) (m : Mbx) (a : Nat) (bs : List Byte) : State :=
  (bs.zipIdx).foldl (fun s x => mbxWriteByte s m ((a + x.2) % 65536) x.1) s

/-- The address of the device on the SMBus (R88). -/
def smbusAddr (s : State) : Nat := 0x58 + s.mgmtAddr % 4

/-- A transfer of a command code and protocol on the SMBus: one to another address is not this device's, a code it does
not define is not acknowledged (R88). -/
def onSmbus (s : State) (dev : BitVec 7) (ok : Bool) (t : State) : State :=
  if dev.toNat ≠ smbusAddr s then s else if ok then t else emit s .smbusNak

/-- A transfer with a bad PEC is discarded. -/
def badPec (s : State) : State := { s with smbus := { s.smbus with pecErr := true } }

/-- SMBUS_WRITE_WORD: command code 0x01 (R88). -/
def execSmbusWriteWord (addr : BitVec 16) (pecBad : Bool) (s : State) (dev : BitVec 7 := 0x58) (code : Byte := 0x01) :
    Host.Outcome State Fault Refusal :=
  onRegs s (onSmbus s dev (code = 1) (if pecBad then badPec s else { s with smbus := { s.smbus with pointer := addr.toNat } }))

/-- Moves the pointer past a transfer. DESIGN CHOICE, see assumption 65: the pointer, and a transfer that runs past 0xFFFF,
go on from 0x0000; the manual does not say what they do. -/
def advancePointer (s : State) (n : Nat) : State := { s with smbus := { s.smbus with pointer := (s.smbus.pointer + n) % 65536 } }

/-- A block read: the bytes at the pointer; one that takes byte 0x202F removes an entry. -/
def blockRead (s : State) (n : Nat) : State :=
  let a := s.smbus.pointer
  readRemoves (emit (advancePointer s n) (.smbus (mbxBytes s.smbus a n))) .smbus a n

/-- SMBUS_BLOCK_TRANSFER: command code 0x02, of 1 to 255 bytes (R88). -/
def execSmbusBlockTransfer (write : Bool) (bytes : List Byte) (count : Nat) (pecBad : Bool) (s : State)
    (dev : BitVec 7 := 0x58) (code : Byte := 0x02) : Host.Outcome State Fault Refusal :=
  let n := if write then bytes.length else count
  onRegs s (onSmbus s dev (code = 2 && decide (1 ≤ n) && decide (n ≤ 255)) (
    if pecBad then badPec s
    else if write then
      let a := s.smbus.pointer
      mbxWrite (advancePointer s n) .smbus a bytes
    else blockRead s n))

/-! ### The management SPI slave (R87) -/

/-- A transaction of the management SPI slave, as its bytes stand on the wire: 0x02 and a 16-bit address, most significant
byte first, then data; or 0x03, the address, the eight dummy clocks as one byte, then as many bytes as are read. Another
instruction byte, or a transaction cut before its data, has no effect. -/
def spiTransaction (s : State) (wire : List Byte) : State :=
  let a := 256 * (nth wire 1 0).toNat + (nth wire 2 0).toNat
  if nth wire 0 0 = 2 then mbxWrite s .spi a (wire.drop 3)
  else if nth wire 0 0 = 3 then
    let n := wire.length - 4
    if n = 0 then s else readRemoves (emit s (.spi (mbxBytes s.spi a n))) .spi a n
  else s

/-! ### Held replies and losses (R53, R54, R86) -/

/-- HELD_REPLY_POSTED: once room has returned, the held reply is posted and reading resumes. -/
def execHeldReplyPosted (s : State) : Host.Outcome State Fault Refusal :=
  .next (match s.ring.held with
    | none => s
    | some bytes =>
      if s.ring.rplEn && decide (cdiv bytes.length 64 ≤ rplFree s.ring) then
        let s := putReply { s with ring := { s.ring with held := none, rplStall := false } } bytes
        undefinedOpcodes s
      else s)

/-- EVENTS_LOST: a loss is reported once there is room. -/
def execEventsLost (d : Dest) (s : State) : Host.Outcome State Fault Refusal :=
  .next (if s.md.mode = .boot then s else match d with
    | .ring => reportRingLoss s
    | .spi => setMbx s .spi (reportMbxLoss .spi)
    | .smbus => setMbx s .smbus (reportMbxLoss .smbus))

/-! ### BAR0 (R414, R419, R422) -/

/-- The 64 bits that a write presents: 8 bytes, or 4 bytes over a register's present value. -/
def merged (old off : Nat) (bs : List Byte) : Nat :=
  if bs.length = 8 then leNat bs
  else if off % 8 = 0 then old / 2 ^ 32 * 2 ^ 32 + leNat bs
  else leNat bs * 2 ^ 32 + old % 2 ^ 32

/-- A vector is unmasked: what its PBA bit holds is sent (R422). -/
def unmaskVector (s : State) (v : Nat) : State :=
  if s.host.pba.contains v && !s.host.funcMask && !s.host.masked.contains v then
    emitHost { s with host := { s.host with pba := s.host.pba.filter (fun x => x ≠ v) } } (.msix v)
  else s

/-- A write to the MSI-X table: vector control, the last four bytes of an entry, holds its mask bit. -/
def msixWrite (s : State) (off : Nat) (bs : List Byte) : State :=
  let s := { s with host := { s.host with msix := memWrite s.host.msix off bs } }
  let v := off / 16
  if off % 16 + bs.length ≤ 12 then s
  else
    let on := (memGet s.host.msix (16 * v + 12)).getLsbD 0
    if on then (if s.host.masked.contains v then s else { s with host := { s.host with masked := s.host.masked ++ [v] } })
    else unmaskVector { s with host := { s.host with masked := s.host.masked.filter (fun x => x ≠ v) } } v

/-- A write to Message Control: the function mask is bit 14, and clear only while bit 15, the enable, is set. PRESUMED, see
assumption 42. -/
def msixControl (s : State) (w : Nat) : State :=
  let s := { s with host := { s.host with funcMask := bit w 14 || !bit w 15 } }
  (List.range 64).foldl unmaskVector s

/-- RING_CTRL (Table 2-2). -/
def ringCtrl (s : State) (v : Nat) : State :=
  if 16 ≤ v then cfgErr s
  else
    let s := if bit v 3 then resync s else s
    writeEvtEn (writeRplEn (writeCmdEn s (bit v 0)) (bit v 1)) (bit v 2)

/-- A base or size register, written only while its ring is disabled. -/
def whileOff (s : State) (on : Bool) (bad : Bool) (f : Rings → Rings) : State :=
  if on || bad then cfgErr s else { s with ring := f s.ring }

/-- RING_STATUS: the W1C bits of Table 2-3. -/
def clearRingStatus (r : Rings) (v : Nat) : Rings :=
  { r with cfgErr := r.cfgErr && !bit v 1, doorbellErr := r.doorbellErr && !bit v 2, evtOverflow := r.evtOverflow && !bit v 3
           headErr := r.headErr && !bit v 5, rplDropped := r.rplDropped && !bit v 6 }

/-- The value that a write of four bytes leaves in the other half. -/
def ctrlBits (r : Rings) : Nat := flags [(0, r.cmdEn), (1, r.rplEn), (2, r.evtEn)]

/-- A write to a register of the control window. -/
def windowWrite (s : State) (off : Nat) (bs : List Byte) : State :=
  let r := s.ring
  let v := fun (old : Nat) => merged old off bs
  match off / 8 * 8 with
  | 0x018 => { s with host := { s.host with sticky := s.host.sticky &&& (2047 ^^^ (v 0 % 2048)) } }
  | 0x020 => { s with host := { s.host with stickyIrq := v s.host.stickyIrq % 2048 } }
  | 0x028 => { s with host := { s.host with holdoff := v s.host.holdoff % 65536 } }
  | 0x040 => whileOff s r.cmdEn false (fun r => { r with cmdBase := v r.cmdBase })
  | 0x048 => whileOff s r.cmdEn (decide (16 ≤ v r.cmdSize)) (fun r => { r with cmdSize := v r.cmdSize })
  | 0x050 => if bs.length = 4 && off % 8 = 4 && v 0 = 0 then s else doorbell s (v 0)
  | 0x060 => whileOff s r.rplEn false (fun r => { r with rplBase := v r.rplBase })
  | 0x068 => whileOff s r.rplEn (decide (16 ≤ v r.rplSize)) (fun r => { r with rplSize := v r.rplSize })
  | 0x078 => writeRplHead s (v r.rplHead)
  | 0x080 => whileOff s r.evtEn false (fun r => { r with evtBase := v r.evtBase })
  | 0x088 => whileOff s r.evtEn (decide (32 ≤ v r.evtSize)) (fun r => { r with evtSize := v r.evtSize })
  | 0x098 => writeEvtHead s (v r.evtHead)
  | 0x0A0 => if v r.tailMirror % 64 ≠ 0 then cfgErr s else { s with ring := { r with tailMirror := v r.tailMirror } }
  | 0x0A8 => ringCtrl s (v (ctrlBits r))
  | 0x0B0 => { s with ring := clearRingStatus r (v 0) }
  | 0x0C0 => kick s (v 0 % 2 ^ 32)
  | _ => s

/-- LINK_STATUS and the fields of a DMA channel (Tables 14-2 and 14-4). -/
def linkStatus (h : HostUnit) : Nat := if h.up then pack [(0, h.gen), (4, h.width), (9, b2n h.flit)] else 0

def dmaStateCode : DmaState → Nat
  | .idle => 0 | .running => 1 | .stopping => 2 | .stopped => 3 | .halted => 4 | .ended => 5

def dmaStatus (d : DmaChannel) : Nat :=
  pack [(0, dmaStateCode d.st), (3, b2n d.fromHost), (4, b2n d.waiting), (8, d.user), (16, d.error), (32, d.completed)]

/-- The channels in a state, as a bitmap. -/
def dmaIn (s : State) (st : DmaState) : Nat :=
  flags ((List.range 32).map (fun c => (c, decide ((dmaCh s c).st = st))))

/-- A register of the control window (Tables 2-1 and 14-2); a reserved or write-only one reads zero. -/
def windowReg (s : State) (off : Nat) : Nat :=
  let r := s.ring
  match off with
  | 0x000 => pack [(0, deviceId s.variant), (16, variantCode s.variant), (32, s.die)]
  | 0x008 => s.host.alive
  | 0x010 => modeWord s
  | 0x018 => s.host.sticky
  | 0x020 => s.host.stickyIrq
  | 0x028 => s.host.holdoff
  | 0x030 => linkStatus s.host
  | 0x040 => r.cmdBase
  | 0x048 => r.cmdSize
  | 0x058 => r.cmdHead
  | 0x060 => r.rplBase
  | 0x068 => r.rplSize
  | 0x070 => r.rplTail
  | 0x078 => r.rplHead
  | 0x080 => r.evtBase
  | 0x088 => r.evtSize
  | 0x090 => r.evtTail
  | 0x098 => r.evtHead
  | 0x0A0 => r.tailMirror
  | 0x0A8 => ctrlBits r
  | 0x0B0 => flags [(0, r.cmdHalt), (1, r.cfgErr), (2, r.doorbellErr), (3, r.evtOverflow), (4, r.rplStall), (5, r.headErr), (6, r.rplDropped)]
  | 0x0B8 => r.evtLost
  | 0x0C8 => dmaIn s .running
  | 0x0D0 => dmaIn s .halted
  | _ => if 0x100 ≤ off && off < 0x200 then dmaStatus (dmaCh s ((off - 0x100) / 8)) else 0

/-- A byte of BAR0 (R414): the control window, the MSI-X table with its mask bits, the PBA. -/
def barByte (s : State) (off : Nat) : Byte :=
  if off < 0x200 then nth (leBytes 8 (windowReg s (off / 8 * 8))) (off % 8) 0
  else if 0x800 ≤ off && off < 0xC00 then
    let b := memGet s.host.msix (off - 0x800)
    if off % 16 = 12 then (b &&& 0xFE#8) ||| BitVec.ofNat 8 (b2n (s.host.masked.contains ((off - 0x800) / 16))) else b
  else if 0xC00 ≤ off && off < 0xC08 then nth (leBytes 8 (flags (s.host.pba.map (fun v => (v, true))))) (off - 0xC00) 0
  else 0

/-- An access that the control window takes: aligned, of 4 or 8 bytes. -/
def barFit (off n : Nat) : Bool := (n = 4 || n = 8) && decide (off % Nat.max 1 n = 0)

/-- A read of BAR0; an access that the window does not take reads zero. -/
def barRead (s : State) (off n : Nat) : List Byte :=
  if barFit off n || 0x200 ≤ off then (List.range n).map (fun i => barByte s (off + i)) else zeros n

/-- A write that BAR0 takes: an aligned one of 4 or 8 bytes; any other has no effect. -/
def barWrite (s : State) (off : Nat) (bs : List Byte) : State :=
  if !barFit off bs.length then s
  else if off < 0x200 then windowWrite s off bs
  else if 0x800 ≤ off && off < 0xC00 then msixWrite s (off - 0x800) bs
  else s

/-- REGISTER_WRITE: a write to a register without a row of its own, or a read. -/
def execRegisterWrite (sp : RegSpace) (addr : Nat) (bytes : List Byte) (s : State) : Host.Outcome State Fault Refusal :=
  onRegs s (match sp with
    | .window => barWrite s addr bytes
    | .ringWindow =>
      if addr + bytes.length ≤ 2 ^ 18 then { s with host := { s.host with window := memWrite s.host.window addr bytes } } else s
    | .mailbox m => mbxWrite s m addr bytes
    | .spiWire => spiTransaction s bytes
    | .msixControl => msixControl s (leNat bytes)
    | .barRead => emit s (.bar (barRead s addr bytes.length))
    | .ringRead => emit s (.bar ((List.range bytes.length).map (fun i => memGet s.host.window (addr + i)))))

/-! ### CLEAR_EVENTS (R75) -/

def specClearEvents : CmdSpec :=
  { opcode := 0x0201, len := fun p => decide (p.length = 4)
    badParam := fun _ _ p _ => decide (fld p 0 4 &&& 2097143 ≠ fld p 0 4) }

def runClearEvents (s : State) (_ : Packet) (_ : Nat) (p : List Byte) (_ : Option Nat) : Ran :=
  let m := fld p 0 4
  let s := { s with ev := { s.ev with latches := s.ev.latches.filter (fun l => !bit m (l.1 / 256)) } }
  let s := if bit m 2 then
      { s with ring := { s.ring with evtLost := 0 }, spi := { s.spi with lost := 0 }, smbus := { s.smbus with lost := 0 } }
    else s
  (stOK, [], s)

/-- CLEAR_EVENTS. -/
def execClearEvents (p : Packet) (s : State) : Host.Outcome State Fault Refusal := .next (runPacket specClearEvents runClearEvents p s)

end Sys2Proof.Machine
end

