-- ==== Sys2Proof/Machine/StoreOps.lean ====
section
/-! DEFINITION. STORE_EXPORT, REPLAY and the row of the rate-reduction policy (R266, R295, R296). -/
namespace Sys2Proof.Machine

/-! ### RATE_STEP_DECISION (R266, R512) -/

/-- A decision of the policy. A synchronised UNDERSTUDY makes none of its own; a LEAD sends each to its peer (R512). -/
def rateDecision (s : State) (below : Bool) : State :=
  if decide (s.pair.role = 2) && s.pair.sync then s else
  match stepDecision s below with
  | (none, s) => s
  | (some (u, _, sigma), s) =>
    if decide (s.pair.role = 1) && s.pair.sync && s.pair.link then
      emit s (.link 4 [u, (match (cap s u).stepPend with | some x => x.2 | none => (cap s u).step), sigma])
    else s

/-- RATE_STEP_DECISION. -/
def execRateStepDecision (below25For1s : Bool) (s : State) : Host.Outcome State Fault Refusal :=
  .next (rateDecision s below25For1s)

/-! ### STORE_EXPORT (R295) -/

/-- The store can be read (Table 9-18). -/
def storeReads (s : State) : Bool := decide (s.store.state = 2) || decide (s.store.state = 3)

/-- A stored block, with its extent and its place in it. -/
structure Stored where
  ext   : Extent
  place : Nat
  block : BlockRec
  deriving DecidableEq, Repr

/-- The blocks of a record in extents that have been written, in index order (R278). -/
def recBlocks (t : Store) (n : Nat) : List Stored :=
  (t.extents.filter (fun e => decide (2 ≤ e.state) && decide (e.state ≤ 4))).flatMap (fun e =>
    ((e.blocks.zipIdx).filter (fun b => decide (b.1.record = n))).map (fun b => { ext := e, place := b.2, block := b.1 }))

/-- The blocks of a range of records, in ascending record and index: the work of an export. -/
def exportList (t : Store) (lo hi : Nat) : List Stored :=
  (t.records.filter (fun r => decide (lo ≤ r.number) && decide (r.number ≤ hi) && decide (r.state ≠ 4))).flatMap (fun r => recBlocks t r.number)

/-- How many they are. -/
def exportBlocks (s : State) (lo hi : Nat) : Nat := (exportList s.store lo hi).length

def specStoreExport : CmdSpec :=
  { opcode := 0x0A41, modes := [.idle, .analyse, .record], starts := true, len := fun p => decide (p.length = 24)
    denied := fun s _ p => s.store.locked && decide (18 ≤ p.length) && decide (fld p 17 1 % 2 = 0)
    badState := fun s _ _ => !storeReads s
    badParam := fun _ _ p _ => decide (fld p 8 8 < fld p 0 8) || decide (32 ≤ fld p 16 1) || decide (2 ≤ fld p 17 1) || !zeroBytes p 18 6
    held := fun s _ p => match heldBy s [0x0A40] with
      | some x => some x
      | none => busyIf (dmaBound s (fld p 16 1)) }

/-- The operation binds its DMA channel until it ends (R423). -/
def runStoreExport (s : State) (p : Packet) (_ : Nat) (pl : List Byte) (_ : Option Nat) : Ran :=
  let (h, s) := startOp s 0x0A41 0 p.tag.toNat (exportBlocks s (fld pl 0 8) (fld pl 8 8))
    { args := [fld pl 0 8, fld pl 8 8, fld pl 16 1, fld pl 17 1] }
  (stACCEPTED, leBytes 4 h, dmaBind s (fld pl 16 1) 2 h false)

/-- STORE_EXPORT. -/
def execStoreExport (p : Packet) (s : State) : Host.Outcome State Fault Refusal :=
  .next (runPacket specStoreExport runStoreExport p s)

/-- Bytes of an export delivered to its channel; `ends` where they end a record (R429). -/
def exportPut (s : State) (o : LongOp) (bs : List Byte) (ends : Bool) : State :=
  setDma s (nth o.work.args 2 0) (fun d => { d with data := d.data ++ [(bs, ends, 0)] })

/-- An argument of an export in progress: 4 the last record delivered, 5 its next block index; 6 to 8 the count, first index and
reason of an unreadable range that has begun. -/
def exportArg (o : LongOp) (i : Nat) : Nat := nth o.work.args i 0

/-- The next block of an export, past the last one delivered. -/
def exportNext (s : State) (o : LongOp) : Option Stored :=
  (exportList s.store (exportArg o 0) (exportArg o 1)).find? (fun x =>
    decide (exportArg o 4 < x.block.record) || (decide (x.block.record = exportArg o 4) && decide (exportArg o 5 ≤ x.block.index)))

/-- The body of a DAMAGE marker: the layout of a gap marker with kind 0x0004 (R295). -/
def damageMarker (source reason first last : Nat) : List Byte :=
  let b := leBytes 2 4 ++ leBytes 2 source ++ leBytes 1 reason ++ zeros 3 ++ leBytes 8 first ++ leBytes 8 last ++ leBytes 4 0
  b ++ leBytes 4 (crc32c b)

/-- An unreadable range in progress ends: its DAMAGE item. -/
def exportFlush (s : State) (o : LongOp) : State :=
  if exportArg o 6 = 0 then s else
  let first := exportArg o 7
  let src := ((findRec s.store (exportArg o 4)).map (·.source)).getD 0
  exportPut s o (itemBytes 0x04 1 first (damageMarker src (exportArg o 8) first (first + exportArg o 6 - 1))) false

/-- Why a block cannot be read: the reason of its damage; one that is poisoned, or not valid as read, has 4 and 5. DESIGN CHOICE,
see assumption 66. -/
def unreadable (s : State) (x : Stored) (bs : List Byte) : Option Nat :=
  match ((findRec s.store x.block.record).map (·.damage)).getD [] |>.find? (fun d => decide (d.first ≤ x.block.index) && decide (x.block.index < d.first + d.count)) with
  | some d => some d.reason
  | none => if bit (fld bs 4079 1) 1 then some 4 else if blockValid s.store.storeId x.ext.serial bs then none else some 5

/-- The payload of a data block as read from a copy, deciphered (R279). -/
def plainPayload (s : State) (x : Stored) (bs : List Byte) : List Byte :=
  let c := ((x.ext.copies.find? (fun c => c.done && !c.failed)).getD (nth x.ext.copies 0 { member := 0, slot := 0 }))
  let p := bs.take 4064
  (if bit (fld bs 4079 1) 0 then Config.aesXtsInv s.store.keyId (xtsTweak c.member (slotBlock c.slot + x.place)) p else p).take (fld bs 4076 2)

/-- One block of an export in items form: HEADER items, payload, and a DAMAGE item for each unreadable range. -/
def exportItems (s : State) (o : LongOp) (x : Stored) (bs : List Byte) : State :=
  let n := x.block.record
  let set := fun (s : State) (l : List Nat) => setOp s o.handle (fun o => { o with work := { o.work with
    args := o.work.args.take 4 ++ [n, x.block.index + 1] ++ l } })
  let header := fun (h : List Byte) (s : State) => exportPut s o (itemBytes 0x30 1 n h) x.block.final
  match unreadable s x bs with
  | none =>
    let s := exportFlush s o
    let s := if x.block.kind = 1 then header (bs.take 512) s else exportPut s o (plainPayload s x bs) false
    set s []
  | some reason =>
    let joins := decide (0 < exportArg o 6) && decide (exportArg o 4 = n) && decide (exportArg o 8 = reason)
    let s := if joins then s else exportFlush s o
    let args := if joins then [exportArg o 6 + 1, exportArg o 7, reason] else [1, x.block.index, reason]
    let s := set s args
    if x.block.final then
      -- the final HEADER item comes all the same
      let o := (findOp s o.handle).getD o
      let s := set (exportFlush s o) []
      header (((findRec s.store n).map (fun r => stampHeader r.header r.state r.damage)).getD []) s
    else s

/-- One block of an export, as read from its drive, delivered to its channel. -/
def exportItem (s : State) (o : LongOp) (bs : List Byte) : State :=
  match exportNext s o with
  | none => s
  | some x =>
    let s := if exportArg o 3 = 1 then
        setOp (exportPut s o bs x.block.final) o.handle (fun o => { o with work := { o.work with
          args := o.work.args.take 4 ++ [x.block.record, x.block.index + 1] } })
      else exportItems s o x bs
    setOp s o.handle (fun o => { o with done := o.done + 1 })

/-! ### REPLAY (R296) -/

/-- The record that a payload names: it holds the raw samples of a channel, and is not freed. -/
def rawRec (s : State) (n : Nat) : Option StoreRec :=
  (findRec s.store n).bind (fun r => if decide (r.source / 256 = 1) && decide (r.state ≠ 4) then some r else none)

/-- A raw record fits a target channel: the same ordinal rate, which R296 calls its rate, and the same pairing. -/
def recFits (s : State) (r : StoreRec) (c : Nat) : Bool :=
  decide (fld r.header 96 8 * fld r.header 120 8 = 1000 * ordRate s c * fld r.header 112 8) &&
  decide (bit (fld r.header 12 4) 11 = paired s) && !(paired s && decide (c = 1))

/-- What refuses a `REPLAY` as it would a `START`: the configuration that the target would run. -/
def replayBarred (s : State) : Bool :=
  anyRunning s || decide (3 ≤ s.md.level) || (List.range 32).any (fun z => decide (zoomFault s z = stBAD_STATE)) ||
  (List.range 16).any (streamFault s) || (List.range 4).any (duFault s) || (List.range 16).any (capFault s) || dmaClash s

def specReplay : CmdSpec :=
  { opcode := 0x0A42, modes := [.analyse], starts := true, len := fun p => decide (p.length = 16)
    absent := fun s _ p => decide (fld p 8 1 < 4) && !fitted s.variant 0x01 (fld p 8 1)
    denied := fun s _ _ => s.store.locked
    badState := fun s _ _ => replayBarred s || !storeReads s
    badParam := fun s _ p _ => decide (4 ≤ fld p 8 1) || !zeroBytes p 9 7 || startBad s ||
      (match rawRec s (fld p 0 8) with
       | some r => !recFits s r (fld p 8 1)
       | none => true)
    held := fun s _ p => match heldBy s [0x0A40, 0x0A42] with
      | some x => some x
      | none => match calHeld s [fld p 8 1] with
        | some x => some x
        | none => busyIf (startBusy s)
    noSpace := fun s _ _ _ => startFull s }

/-- The channels that run: the target, and with it CH1 where CH0 is paired. -/
def replayChans (s : State) (c : Nat) : List Nat := if paired s && decide (c = 0) then [0, 1] else [c]

/-- A stream goes on at the first frame, or trace, that begins at or after source index i. -/
def streamSkip (s : State) (n i : Nat) : State :=
  if xfRa s n then setStream s n (fun st => { st with base := Nat.max st.base i, buf := [] })
  else
    let st := stream s n
    let group := if par s 0x070C n = 0 then 1 else 2 ^ par s 0x070D n
    let h := hopOf (xfN s n) st.hop
    let k := cdiv (i - st.origin) (h * group)
    setStream s n (fun st => { st with base := st.origin + k * h * group, buf := [], frame := k * group, traceIdx := k })

/-- Ordinals begin at the record's first, n: everything below is past, with each origin as at ordinal 0 (R296). -/
def replayFrom (s : State) (c n : Nat) : State :=
  let j := (n - 24) / 2
  let s := (replayChans s c).foldl (fun s k => setChan s k (fun ch =>
    { ch with count := if paired s && decide (c = 0) then (n + 1 - k) / 2 else n })) s
  let s := ((List.range 32).filter (fun z => (nth s.zooms z {}).running)).foldl (fun s z => zoomJump s z j) s
  let s := ((List.range 16).filter (fun k => (stream s k).running)).foldl (fun s k =>
    streamSkip s k (if isZoomCode (xfSrc s k) then (nth s.zooms (xfSrc s k % 256) {}).outIndex else j)) s
  if c ≠ cueChan s then s else
  let t := timersFrom s n
  { t with cue := { t.cue with played := Nat.max t.cue.played n } }

/-- The target runs as after `START`, from the record's first ordinal. -/
def runReplay (s : State) (p : Packet) (_ : Nat) (pl : List Byte) (_ : Option Nat) : Ran :=
  let c := fld pl 8 1
  match rawRec s (fld pl 0 8) with
  | none => (stBAD_PARAM, [], s)
  | some r =>
    let first := fld r.header 48 8
    let (at_, s) := takeFree s
    let (h, s) := startOp s 0x0A42 0 p.tag.toNat (fld r.header 56 8 + 1 - first) { args := [fld pl 0 8, c] }
    (stACCEPTED, leBytes 4 h, replayFrom (startAll s (replayChans s c) at_) c first)

/-- REPLAY. -/
def execReplay (p : Packet) (s : State) : Host.Outcome State Fault Refusal := .next (runPacket specReplay runReplay p s)

/-- The run ends: the channels stop where the record ends. -/
def replayEnd (s : State) (o : LongOp) (st : OpState) : State :=
  let s := if anyRunning s then stopAll s (ordNext s (cueChan s)) true else s
  enterOpState s o.handle st

/-- One step of a replay: a sample, a marker or a coefficient set of the record, or its end. A run that a `STOP` has
ended is over. -/
def replayStep (s : State) (o : LongOp) (f : StepFacts) : State :=
  let c := nth o.work.args 1 0
  if !(chan s c).running then enterOpState s o.handle .done else
  match f with
  | .sample code flag =>
    let s := cuePoints (2 * s.pend.length) s
    let n := ordNext s c
    let k := if paired s && decide (c = 0) then n % 2 else c
    if !sampleOpen s k then s else
    let s := sampleTake s k code (flag && decide ((chan s c).stlEnd ≤ n))
    setOp s o.handle (fun o => { o with done := o.done + 1 })
  | .range fs lastStl =>
    let n := ordNext s c
    let s := (replayChans s c).foldl (fun s k => setChan s k (fun ch => { ch with fsInForce := fs })) s
    capRange (setChan s c (fun ch => { ch with stlEnd := Nat.max ch.stlEnd (lastStl + 1) })) c fs n lastStl
  | .coefficients sets =>
    sets.foldl (fun s x =>
      if (replayChans s c).contains x.1 then
        capCal (setChan s x.1 (fun ch => { ch with coef := bytesCoef x.2 })) c (ordNext s c) x.2
      else s) s
  | .marker m =>
    if m.first = ordNext s c && decide (m.first ≤ m.last) then
      let s := channelMarker id s c m.first m.last { m with source := 0x0100 + c }
      setOp s o.handle (fun o => { o with done := o.done + (m.last + 1 - m.first) })
    else s
  | .done => replayEnd s o .done
  | .failed st => replayEnd (setOp s o.handle (fun o => { o with failed := st })) o .failed
  | _ => s

end Sys2Proof.Machine
end

