-- ==== Sys2Proof/Machine/Secure.lean ====
section
/-! DEFINITION. Self-test, firmware, debug and store keys (R552 to R562). -/
namespace Sys2Proof.Machine

def setSec (s : State) (f : SecUnit → SecUnit) : State := { s with sec := f s.sec }

/-! ### SELF_TEST (R552) -/

def specSelfTest : CmdSpec :=
  { opcode := 0x1340, modes := [.service], starts := true, len := fun p => decide (p.length = 8)
    badParam := fun _ _ p _ => decide (2 ^ 11 ≤ fld p 0 4) || !zeroBytes p 4 4, held := fun s _ _ => heldBy s [0x1340] }

/-- Work total is the requested bitmap; the units left to do are its tests in ascending number. -/
def runSelfTest (s : State) (p : Packet) (_ : Nat) (pl : List Byte) (_ : Option Nat) : Ran :=
  let (h, s) := startOp s 0x1340 0 p.tag.toNat (fld pl 0 4) { units := setBits 11 (fld pl 0 4) }
  (stACCEPTED, leBytes 4 h, pllsFollow s s.md.mode)

/-- SELF_TEST. -/
def execSelfTest (p : Packet) (s : State) : Host.Outcome State Fault Refusal := .next (runPacket specSelfTest runSelfTest p s)

/-- The march test of the HBM discards what the wings hold (Table 20-2): played data not yet confirmed, and shadowed data. -/
def wingsDiscard (s : State) : State :=
  { s with
    caps := s.caps.map (fun c => { c with ring := [], recs := [], playedBytes := 0, extBytes := [] })
    host := { s.host with chans := s.host.chans.map (fun d => { d with data := d.data.filter (fun x => decide (x.2.2 = 0)) }) }
    pair := { s.pair with shadow := [] }
    store := { s.store with extents := s.store.extents.filter (fun e => decide (2 ≤ e.state) && decide (e.state ≤ 5)) } }

/-- The next test ends with the units that failed it; a unit that is absent fails nothing. -/
def testStep (s : State) (o : LongOp) (failures : List (Nat × Nat)) : State :=
  match o.work.units with
  | [] => enterOpState s o.handle .done
  | t :: rest =>
    let bad := failures.filter (fun x => fitted s.variant x.1 x.2)
    let s := if t = 6 then wingsDiscard s else s
    let s := bad.foldl (fun s x => raise s 0x1301 t (x.2 % 65536 + 65536 * x.1)) s
    let s := setOp s o.handle (fun o => { o with
      done := o.done ||| 2 ^ t ||| (if bad.isEmpty then 0 else 2 ^ (32 + t)), work := { o.work with units := rest } })
    if rest.isEmpty then enterOpState s o.handle .done else s

/-! ### FW_UPDATE, FW_COMMIT (R555 to R557) -/

/-- An image runs. -/
def imageRuns (s : State) : Bool := !s.md.romServes

/-- The slot that an update writes: the one that is not running, or slot A. -/
def updateSlot (s : State) : Nat := if imageRuns s then 1 - s.md.bootSlot else 0

def specFwUpdate : CmdSpec :=
  { opcode := 0x1440, modes := [.idle, .safe], starts := true, len := fun p => decide (p.length = 16)
    badParam := fun _ _ p _ => decide (fld p 0 8 % 64 ≠ 0) || decide (fld p 8 4 = 0) || decide (8388608 < fld p 8 4) ||
      decide (32 ≤ fld p 12 1) || decide (2 ≤ fld p 13 1) || !zeroBytes p 14 2
    held := fun s _ p => match heldBy s [0x1440] with
      | some x => some x
      | none => busyIf (dmaBound s (fld p 12 1)) }

/-- The update starts: the target is marked empty. Its plan: [target, channel, NO_RESTART]. -/
def runFwUpdate (s : State) (p : Packet) (_ : Nat) (pl : List Byte) (_ : Option Nat) : Ran :=
  let t := updateSlot s
  let (h, s) := startOp s 0x1440 0 p.tag.toNat (cdiv (fld pl 8 4) 65536) { args := [t, fld pl 12 1, fld pl 13 1] }
  let s := emit (setSec s (fun x => { x with slots := lmod x.slots t (fun _ => none) })) (.flashErase t)
  (stACCEPTED, leBytes 4 h, dmaBind s (fld pl 12 1) 5 h true)

/-- FW_UPDATE. -/
def execFwUpdate (p : Packet) (s : State) : Host.Outcome State Fault Refusal := .next (runPacket specFwUpdate runFwUpdate p s)

/-- Frees the channel of a direct user. -/
def dmaFree (s : State) (c : Nat) : State := setDma s c (fun d => { d with user := 0 })

/-- The update fails: the target stays empty. -/
def updateFail (s : State) (o : LongOp) (st : Nat) : State :=
  enterOpState (setOp (dmaFree s (nth o.work.args 1 0)) o.handle (fun o => { o with failed := st })) o.handle .failed

/-- The bit of an image's variant mask that names this device (Table 20-4). -/
def variantBit : Variant → Nat
  | .f => 0 | .s => 1 | .h => 2

/-- What the header of an image makes it (R554): its version and rollback index, where the header check holds, its variant mask
includes the device, its key index names a fused key that has not been revoked, and its rollback index is at least the counter.
That the signature and the digest of the body hold, the read-back tells. -/
def headerImage (s : State) (h : List Byte) : Option SlotImage :=
  if decide (h.take 4 = ([0x4F, 0x4C, 0x46, 0x57] : List Byte)) && decide (fld h 4 2 = 1) && bit (fld h 6 2) (variantBit s.variant) &&
      decide (fld h 13 1 < 4) && !s.sec.revoked.contains (fld h 13 1) && decide (fld h 16 4 ≤ 8388096) &&
      decide (fld h 508 4 = crc32c (h.take 508)) && decide (s.sec.counter ≤ fld h 12 1) then
    some { version := fld h 8 4, rollback := fld h 12 1 }
  else none

/-- One step of the update: a sector, or the verification and the switch of the boot selection. -/
def updateStep (s : State) (o : LongOp) (f : StepFacts) : State :=
  let t := nth o.work.args 0 0
  match f with
  | .failed st => updateFail s o st
  | .sector bs =>
    if o.total ≤ o.done then s
    else setOp (emit s (.flashSector t o.done bs)) o.handle (fun o =>
      { o with done := o.done + 1, work := { o.work with bytes := (o.work.bytes ++ bs).take 512 } })
  | .verified good =>
    if o.done < o.total then s
    else match (if good then headerImage s o.work.bytes else none) with
    | none => updateFail s o stBAD_PARAM
    | some img =>
      let s := emit (setSec s (fun x => { x with
        slots := lmod x.slots t (fun _ => some img), selected := t, trial := true, selSeq := x.selSeq + 1 }))
        (.flashSelect t true (s.sec.selSeq + 1))
      let s := dmaFree (setOp s o.handle (fun o => { o with points := true })) (nth o.work.args 1 0)
      let s := enterOpState s o.handle .done
      if nth o.work.args 2 0 = 1 then s else restartDevice s 4
  | _ => s

def specFwCommit : CmdSpec := { opcode := 0x1450, modes := [.idle, .analyse, .record] }

/-- Blows the fuses from the counter up to an index. -/
def raiseCounter (s : State) (n : Nat) : State :=
  let s' := ((List.range n).drop s.sec.counter).foldl (fun s i => emit s (.fuse (i + 1))) s
  setSec s' (fun x => { x with counter := Nat.max x.counter n })

def runFwCommit (s : State) (_ : Packet) (_ : Nat) (_ : List Byte) (_ : Option Nat) : Ran :=
  let s := if s.sec.trial then
      emit (setSec s (fun x => { x with trial := false, selSeq := x.selSeq + 1 })) (.flashSelect s.sec.selected false (s.sec.selSeq + 1))
    else s
  (stOK, [], raiseCounter s s.sec.rollback)

/-- FW_COMMIT. -/
def execFwCommit (p : Packet) (s : State) : Host.Outcome State Fault Refusal := .next (runPacket specFwCommit runFwCommit p s)

/-! ### Debug unlock (R558) -/

/-- The modes after BOOT, without DORMANT. -/
def awakeModes : List Mode := [.idle, .analyse, .record, .watch, .service, .safe]

def specDbgChallenge : CmdSpec := { opcode := 0x1420, modes := awakeModes }

/-- The nonce is a free value. -/
def runDbgChallenge (s : State) (_ : Packet) (_ : Nat) (_ : List Byte) (_ : Option Nat) : Ran :=
  let (n, s) := takeFree s
  (stOK, leBytes 16 n, setSec s (fun x => { x with nonce := some (leBytes 16 n) }))

/-- DBG_CHALLENGE. -/
def execDbgChallenge (p : Packet) (s : State) : Host.Outcome State Fault Refusal :=
  .next (runPacket specDbgChallenge runDbgChallenge p s)

/-- A signature verifies under some fused key that is not revoked. -/
def signedByAny (s : State) (body sig : List Byte) : Bool :=
  (List.range 4).any (fun k => !s.sec.revoked.contains k && Config.verify k body sig)

/-- A token of Table 20-5 that unlocks: this device's serial, its nonce, a valid signature. -/
def tokenOk (s : State) (p : List Byte) : Bool :=
  decide (fld p 0 8 = s.serial) && decide (s.sec.nonce = some ((p.drop 8).take 16)) && signedByAny s (p.take 32) (p.drop 32)

def specDbgUnlock : CmdSpec :=
  { opcode := 0x1421, modes := awakeModes, len := fun p => decide (p.length = 128), denied := fun s _ p => decide (p.length = 128) && !tokenOk s p
    badParam := fun _ _ p _ => !zeroBytes p 28 4 }

def runDbgUnlock (s : State) (_ : Packet) (_ : Nat) (p : List Byte) (_ : Option Nat) : Ran :=
  let scope := fld p 24 4
  (stOK, [], raise (setSec s (fun x => { x with nonce := none, debug := some scope })) 0x1401 0 scope)

/-- The packet is read now and answered DENIED. -/
def tokenDenied (p : Packet) (s : State) : Bool :=
  readable s 0x1421 p && (frameCheck 0x1421 p).isNone && decide (checks true specDbgUnlock s p = some (6, stDENIED))

/-- DBG_UNLOCK. A token that is denied spends the nonce. -/
def execDbgUnlock (p : Packet) (s : State) : Host.Outcome State Fault Refusal :=
  let s' := runPacket specDbgUnlock runDbgUnlock p s
  .next (if tokenDenied p s then setSec s' (fun x => { x with nonce := none }) else s')

/-! ### Store keys (R559 to R562) -/

def keyModes : List Mode := [.idle, .safe]

/-- A key slot that holds a key. -/
def slotFilled (s : State) (k : Nat) : Bool := decide (nth s.sec.keys k 0 ≠ 0)

def setKey (s : State) (k id : Nat) : State := setSec s (fun x => { x with keys := lmod x.keys k (fun _ => id) })

def specKeyGenerate : CmdSpec :=
  { opcode := 0x1430, modes := keyModes, len := fun p => decide (p.length = 1)
    badState := fun s _ p => !p.isEmpty && decide (fld p 0 1 < 4) && slotFilled s (fld p 0 1), badParam := fun _ _ p _ => decide (4 ≤ fld p 0 1) }

/-- A random key with a key ID that is a free value, not zero. -/
def runKeyGenerate (s : State) (_ : Packet) (_ : Nat) (p : List Byte) (_ : Option Nat) : Ran :=
  let (n, s) := takeFree s
  (stOK, [], setKey s (fld p 0 1) (n % (2 ^ 64 - 1) + 1))

/-- KEY_GENERATE. -/
def execKeyGenerate (p : Packet) (s : State) : Host.Outcome State Fault Refusal :=
  .next (runPacket specKeyGenerate runKeyGenerate p s)

/-- What makes a key blob (Table 20-9) ill-formed for this device. -/
def blobBad (s : State) (b : List Byte) : Bool :=
  decide (b.take 4 ≠ ([0x4F, 0x4C, 0x4B, 0x42] : List Byte)) || decide (fld b 4 2 ≠ 1) || decide (fld b 7 1 ≠ 0) ||
  decide (fld b 8 8 ≠ s.serial) || decide (fld b 16 8 = 0) || decide (fld b 288 4 ≠ crc32c (b.take 288))

/-- What denies a blob: its signer's fused key is revoked or absent, the signature is invalid, or the unwrap fails. -/
def blobDenied (s : State) (b : List Byte) : Bool :=
  let k := fld b 6 1
  decide (4 ≤ k) || s.sec.revoked.contains k || !Config.verify k (b.take 192) ((b.drop 192).take 96) || !Config.unwraps b

def specKeyImport : CmdSpec :=
  { opcode := 0x1431, modes := keyModes, len := fun p => decide (p.length = 300)
    badState := fun s _ p => !p.isEmpty && decide (fld p 0 1 < 4) && slotFilled s (fld p 0 1)
    badParam := fun s _ p _ => decide (4 ≤ fld p 0 1) || !zeroBytes p 1 7 || blobBad s (p.drop 8) }

def runKeyImport (s : State) (_ : Packet) (_ : Nat) (p : List Byte) (_ : Option Nat) : Ran :=
  let b := p.drop 8
  if blobDenied s b then (stDENIED, [], s) else (stOK, [], setKey s (fld p 0 1) (fld b 16 8))

/-- KEY_IMPORT. -/
def execKeyImport (p : Packet) (s : State) : Host.Outcome State Fault Refusal := .next (runPacket specKeyImport runKeyImport p s)

/-- A slot holds the key of the mounted store. -/
def slotInUse (s : State) (k : Nat) : Bool :=
  storeReads s && s.store.encrypted && slotFilled s k && decide (nth s.sec.keys k 0 = s.store.keyId)

def specKeyErase : CmdSpec :=
  { opcode := 0x1432, modes := keyModes, len := fun p => decide (p.length = 1), badState := fun s _ p => !p.isEmpty && slotInUse s (fld p 0 1)
    badParam := fun _ _ p _ => decide (4 ≤ fld p 0 1) }

def runKeyErase (s : State) (_ : Packet) (_ : Nat) (p : List Byte) (_ : Option Nat) : Ran := (stOK, [], setKey s (fld p 0 1) 0)

/-- KEY_ERASE. -/
def execKeyErase (p : Packet) (s : State) : Host.Outcome State Fault Refusal := .next (runPacket specKeyErase runKeyErase p s)

def specKeyImportPubkey : CmdSpec := { opcode := 0x1433, modes := awakeModes }

def runKeyImportPubkey (s : State) (_ : Packet) (_ : Nat) (_ : List Byte) (_ : Option Nat) : Ran :=
  (stOK, leBytes 8 s.serial ++ padTo 96 (Config.importKey.take 96), s)

/-- KEY_IMPORT_PUBKEY (R562). -/
def execKeyImportPubkey (p : Packet) (s : State) : Host.Outcome State Fault Refusal :=
  .next (runPacket specKeyImportPubkey runKeyImportPubkey p s)

end Sys2Proof.Machine
end

