-- ==== Sys2Proof/Machine/Tap.lean ====
section
/-! DEFINITION. The test access port (R550, R551). A row loads its instruction and passes once through the register that
it selects: `shift` goes in at TDI, first bit first, and TDO answers as many bits. -/
namespace Sys2Proof.Machine

/-- The bits of a number, least significant first. -/
def numBits (n v : Nat) : List Bool := (List.range n).map (bit v)

/-- Bits that the manual leaves to the board: what cells capture from their balls. -/
def freeBits (n : Nat) (s : State) : List Bool × State :=
  let (v, s) := takeFree s
  (numBits n v, s)

/-- A register of known content is shifted: what comes out, and what it holds after. -/
def shiftThrough (old shift : List Bool) : List Bool × List Bool :=
  let l := old ++ shift
  (l.take shift.length, l.drop shift.length)

def setTap (s : State) (f : TapUnit → TapUnit) : State := { s with tap := f s.tap }

/-- The bypass register, which captures 0 (IEEE 1149.1). -/
def passBypass (s : State) (i : TapInstr) (drive float : Bool) (shift : List Bool) : State :=
  let (out, now) := shiftThrough [false] shift
  emit (setTap s (fun t => { t with instr := i, driving := drive, highz := float, bypass := now.headD false })) (.tdo out)

/-- The boundary register: TDO gives what its cells captured, and the cells hold what was shifted in. -/
def passBoundary (s : State) (i : TapInstr) (drive : Bool) (shift : List Bool) : State :=
  let (out, s) := freeBits shift.length s
  emit (setTap s (fun t => { t with instr := i, driving := drive, highz := false, boundary := shift })) (.tdo out)

/-- PDACs under a drive instruction stand at their clear values (R551). -/
def tapClear (s : State) : State := if tapDrives s then clearPdacs s else s

/-- The port works while the device has power. -/
def tapRow (f : State → State) (s : State) : Host.Outcome State Fault Refusal := .next (if s.md.powered then f s else s)

/-- An instruction that needs scan, loaded while it is not enabled, selects the bypass register (R551). -/
def withScan (shift : List Bool) (f : State → State) (s : State) : State :=
  if scanEnabled s then tapClear (f s) else passBypass s .bypass false false shift

/-- EXTEST. -/
def execExtest (shift : List Bool) (s : State) : Host.Outcome State Fault Refusal :=
  tapRow (withScan shift (fun s => passBoundary s .extest true shift)) s

/-- SAMPLE/PRELOAD: balls keep their function. -/
def execSamplePreload (shift : List Bool) (s : State) : Host.Outcome State Fault Refusal :=
  tapRow (fun s => passBoundary s .samplePreload false shift) s

/-- The identification register: stepping, Device ID (Table 14-1), 0x2C7, 1. -/
def identity (s : State) : Nat :=
  1 + 2 * 0x2C7 + 2 ^ 12 * deviceId s.variant + 2 ^ 28 * (s.die % 16)

/-- IDCODE. -/
def execIdcode (shift : List Bool) (s : State) : Host.Outcome State Fault Refusal :=
  tapRow (fun s =>
    let (out, now) := shiftThrough (numBits 32 (identity s)) shift
    emit (setTap s (fun t => { t with instr := .idcode, driving := false, highz := false
                                      ident := bitmapOf ((List.range 32).filter (fun i => nth now i false)) })) (.tdo out)) s

/-- HIGHZ. -/
def execHighz (shift : List Bool) (s : State) : Host.Outcome State Fault Refusal :=
  tapRow (withScan shift (fun s => passBypass s .highz false true shift)) s

/-- CLAMP: balls hold what the boundary register holds. -/
def execClamp (shift : List Bool) (s : State) : Host.Outcome State Fault Refusal :=
  tapRow (withScan shift (fun s => passBypass s .clamp true false shift)) s

/-- EXTEST_PULSE. -/
def execExtestPulse (shift : List Bool) (s : State) : Host.Outcome State Fault Refusal :=
  tapRow (withScan shift (fun s => passBoundary s .extestPulse true shift)) s

/-- EXTEST_TRAIN. -/
def execExtestTrain (shift : List Bool) (s : State) : Host.Outcome State Fault Refusal :=
  tapRow (withScan shift (fun s => passBoundary s .extestTrain true shift)) s

/-- Debug is unlocked with scope [0] (R558). -/
def debugOpen (s : State) : Bool :=
  match s.sec.debug with
  | some scope => bit scope 0
  | none => false

/-- DBG_ACCESS: the 64-bit debug port, whose answer the manual does not give, or the bypass register while debug is
locked. -/
def execDbgAccess (shift : List Bool) (s : State) : Host.Outcome State Fault Refusal :=
  tapRow (fun s =>
    if debugOpen s then
      let (out, s) := freeBits shift.length s
      let held := (numBits 64 s.tap.debug ++ shift).drop shift.length
      emit (setTap s (fun t => { t with instr := .dbgAccess, driving := false, highz := false
                                        debug := bitmapOf ((List.range 64).filter (fun i => nth held i false)) })) (.tdo out)
    else passBypass s .bypass false false shift) s

/-- BYPASS. -/
def execBypass (shift : List Bool) (s : State) : Host.Outcome State Fault Refusal :=
  tapRow (fun s => passBypass s .bypass false false shift) s

/-- TEST_LOGIC_RESET: the instruction is IDCODE, and every ball is in its functional state. -/
def execTestLogicReset (s : State) : Host.Outcome State Fault Refusal :=
  tapRow (fun s => setTap s (fun t => { t with instr := .idcode, driving := false, highz := false })) s

end Sys2Proof.Machine
end

