-- ==== Sys2Proof/Machine/OpSteps.lean ====
section
/-! DEFINITION. OP_STEP_BOUNDARY: a long operation completes a unit of work, and suspension or cancellation takes effect
(R79, R81 to R83, Table 2-16). -/
namespace Sys2Proof.Machine

/-! ### CALIBRATE_CONVERTERS (R128, R129, R148) -/

/-- The set measured for a channel replaces its own; the pair skew is measured with PAIR alone. -/
def calSet (pair : Bool) (m old : CoefSet) : CoefSet :=
  if pair then { m with pairValid := true } else { m with skewPair := old.skewPair, pairValid := old.pairValid }

/-- One step: the last one writes the measured sets of every named channel at one instant. -/
def calStep (s : State) (o : LongOp) (f : StepFacts) : State :=
  match f with
  | .done => if o.done + 1 < o.total then setOp s o.handle (fun o => { o with done := o.done + 1 }) else s
  | .coefficients sets =>
    if o.done + 1 < o.total || !o.work.args.all (fun c => sets.any (fun x => decide (x.1 = c))) then s
    else
      let pair := o.work.bytes.any (fun b => b.getLsbD 0)
      let s := (sets.filter (fun x => o.work.args.contains x.1)).foldl (fun s x =>
        setChan s x.1 (fun ch => { ch with coef := calSet pair (bytesCoef x.2) ch.coef, calValid := true })) s
      enterOpState (setOp s o.handle (fun o => { o with done := o.total })) o.handle .done
  | .failed st => enterOpState (setOp s o.handle (fun o => { o with failed := st })) o.handle .failed
  | _ => s

/-! ### The others -/

/-- One more unit of work; `fin` is what the last one does. -/
def countStep (s : State) (o : LongOp) (f : StepFacts) (fin : State → State) : State :=
  match f with
  | .done =>
    let s := setOp s o.handle (fun o => { o with done := o.done + 1 })
    if o.done + 1 < o.total then s else enterOpState (fin s) o.handle .done
  | .failed st => enterOpState (setOp s o.handle (fun o => { o with failed := st })) o.handle .failed
  | _ => s

/-- One step of an export (R295). -/
def exportStep (s : State) (o : LongOp) (f : StepFacts) : State :=
  let release := fun s => dmaRelease s (nth o.work.args 2 0)
  match f with
  | .item bs => exportItem s o bs
  | .done => enterOpState (release (exportFlush s o)) o.handle .done
  | .failed st => enterOpState (release (setOp s o.handle (fun o => { o with failed := st }))) o.handle .failed
  | _ => s

/-- The last block of a re-hash: the new masks are in force and in flash (R404). -/
def rehashEnd (s : State) : State :=
  emit { s with hbm := { s.hbm with facets := s.hbm.newFacets, newFacets := [] } } (.flashFacets s.hbm.newFacets)

/-- One unit of work of a live operation. -/
def workStep (s : State) (o : LongOp) (f : StepFacts) : State :=
  match o.opcode with
  | 0x0440 => calStep s o f
  | 0x0A40 => countStep (match f with | .done => formatMember s (nth o.work.units o.done 0) | _ => s) o f (fun s => formatDone s o)
  | 0x0A41 => exportStep s o f
  | 0x0A42 => replayStep s o f
  | 0x0D40 => countStep s o f rehashEnd
  | 0x0D41 => countStep (match f with | .done => scrubBlock s o.done | _ => s) o f id
  | 0x1140 => replanStep s o f
  | 0x1240 => resyncStep s o f
  | 0x1340 => match f with
    | .test l => testStep s o l
    | .failed st => enterOpState (setOp s o.handle (fun o => { o with failed := st })) o.handle .failed
    | _ => if o.work.units.isEmpty then enterOpState s o.handle .done else s
  | _ => updateStep s o f

/-! ### Suspension and cancellation -/

/-- A step is in progress that a suspension or cancellation waits for: a rail step of `MARGIN_REPLAN` (R79, Table 2-16). -/
def inStep (o : LongOp) : Bool := decide (o.opcode = 0x1140) && decide (planAt o 1 ≠ 0)

/-- The items of a channel up to the last that ends a record. -/
def wholeRecords : List (List Byte × Bool × Nat) → List (List Byte × Bool × Nat)
  | [] => []
  | x :: l => match wholeRecords l with
    | [] => if x.2.1 then [x] else []
    | m => x :: m

/-- What a cancelled operation leaves (Table 2-16). -/
def cancelEnd (s : State) (o : LongOp) : State :=
  match o.opcode with
  | 0x0A41 =>
    let c := nth o.work.args 2 0
    dmaRelease (setDma s c (fun d => { d with data := wholeRecords d.data })) c
  | 0x0A42 => if anyRunning s then stopAll s (ordNext s (cueChan s)) true else s
  | 0x0D40 => { s with hbm := { s.hbm with newFacets := [] } }
  | 0x1240 => resyncDrop s
  | 0x1440 => dmaFree s (nth o.work.args 1 0)
  | _ => s

/-- A boundary of an operation that is being cancelled. `HBM_REHASH` moves its blocks back, one each (R404); a step of
`MARGIN_REPLAN` completes; the others end at once. -/
def cancelStep (s : State) (o : LongOp) (f : StepFacts) : State :=
  if decide (o.opcode = 0x0D40) && decide (0 < o.done) then
    let s := setOp s o.handle (fun o => { o with done := o.done - 1 })
    if o.done = 1 then enterOpState (cancelEnd s o) o.handle .cancelled else s
  else
    let s := if inStep o then replanStep s o f else s
    match findOp s o.handle with
    | some o => if inStep o then s else enterOpState (cancelEnd s o) o.handle .cancelled
    | none => s

/-- One boundary of an operation. -/
def boundary (s : State) (h : Nat) (f : StepFacts) : State :=
  match findOp s h with
  | none => s
  | some o =>
    match o.state with
    | .running => workStep s o f
    | .suspending =>
      let s := workStep s o f
      (match findOp s h with
       | some o => if o.state = .suspending && !inStep o then enterOpState s h .suspended else s
       | none => s)
    | .cancelling => cancelStep s o f
    | _ => s

/-- The operations that power PLLs while they need them (R148). -/
def needsPlls (s : State) (h : Nat) : Bool :=
  match findOp s h with
  | some o => decide (o.opcode = 0x0440) || decide (o.opcode = 0x1340)
  | none => false

/-- OP_STEP_BOUNDARY. -/
def execOpStepBoundary (handle : Nat) (f : StepFacts) (s : State) : Host.Outcome State Fault Refusal :=
  let t := boundary s handle f
  .next (if needsPlls s handle then pllsFollow t t.md.mode else t)

end Sys2Proof.Machine
end

