-- ==== Sys2Proof/Machine/Pair.lean ====
section
/-! DEFINITION. The redundant pair over the Brixfiut link (chapter 18): liveness, roles, replication, shadow, cross-check
and takeover. -/
namespace Sys2Proof.Machine

/-! ### Liveness (R505, R519, R520) -/

/-- The modes in which the link runs and heartbeats are sent (R498, Table 18-1). -/
def linkMode (s : State) : Bool :=
  s.md.mode = .idle || s.md.mode = .analyse || s.md.mode = .record || s.md.mode = .watch || s.md.mode = .service

/-- ALIVE_TOGGLE. -/
def execAliveToggle (s : State) : Host.Outcome State Fault Refusal :=
  .next (if !s.pair.aliveToggling then s
    else emit (setPair s (fun p => { p with aliveLevel := !p.aliveLevel })) (.alive (!s.pair.aliveLevel)))

/-- Both conditions hold and promotion is withheld (R519). -/
def withheld (s : State) : Bool :=
  !s.pair.peerAlive && !s.pair.heartbeat && decide (s.pair.role = 2) && !eligible s

/-- Posts `PAIR_PEER` after a change of either condition; the SPLIT bit stays only while the two differ. A LEAD whose
peer is gone no longer forwards. -/
def peerChanged (s : State) : State :=
  let s := raise s 0x1203 0 (b2n s.pair.peerAlive + 2 * b2n s.pair.heartbeat + 4 * b2n (withheld s)) (cueNow s)
  setPair s (fun p => { p with
    split := p.split && decide (p.peerAlive ≠ p.heartbeat)
    sync := p.sync && !(decide (p.role = 1) && !p.peerAlive && !p.heartbeat) })

/-- The link is split (R520): one sign of life without the other. -/
def splitLink (s : State) (detail : Nat) : State :=
  if s.pair.role = 0 then s
  else loseSync (raiseLatched (setPair s (fun p => { p with split := true })) 0x1208 0 detail (cueNow s)) 5

/-- PEER_ALIVE_STOPPED. -/
def execPeerAliveStopped (s : State) : Host.Outcome State Fault Refusal :=
  .next (if !managerUp s || !s.pair.peerAlive then s else peerChanged (setPair s (fun p => { p with peerAlive := false })))

/-- PEER_ALIVE_EDGE: PEER_ALIVE toggles; with the heartbeat lost that is a split. -/
def execPeerAliveEdge (s : State) : Host.Outcome State Fault Refusal :=
  .next (if !managerUp s then s
    else
      let s := if s.pair.peerAlive then s else peerChanged (setPair s (fun p => { p with peerAlive := true }))
      if s.pair.heartbeat then s else splitLink s 1)

/-- A heartbeat arrives, with what it tells of the peer. An UNDERSTUDY loses synchronisation by a gap or a shed level of its
LEAD (R510). -/
def heartbeatIn (s : State) (x : PeerFacts) : State :=
  let s := setPair s (fun p => { p with
    peerRole := x.role, peerLead := decide (x.role = 1), peerMode := x.mode, peerRuns := x.running, peerPps := x.ppsQual
    sync := p.sync && (decide (p.role ≠ 1) || x.sync) })
  let s := if s.pair.heartbeat then s else peerChanged (setPair s (fun p => { p with heartbeat := true }))
  let s := if s.pair.role = 2 && decide (x.role = 1) && (decide (x.lost = 3) || decide (x.lost = 4)) then loseSync s x.lost else s
  if s.pair.peerAlive then s else splitLink s 2

/-- HEARTBEAT: one is sent, or one arrives. A message that fails its check is discarded and counted (R499). -/
def execHeartbeat (peer : Option PeerFacts) (s : State) : Host.Outcome State Fault Refusal :=
  .next (if !s.pair.link || !linkMode s then s
    else match peer with
      | none => sendPair s 1 [s.pair.role, b2n s.pair.sync, modeCode s.md.mode, b2n (anyRunning s), b2n s.clk.ppsQual, s.pair.lostBy]
      | some x => if x.broken then setPair s (fun p => { p with errors := satU 32 (p.errors + 1) }) else heartbeatIn s x)

/-- HEARTBEAT_LOST. -/
def execHeartbeatLost (s : State) : Host.Outcome State Fault Refusal :=
  .next (if !managerUp s || !s.pair.heartbeat then s else peerChanged (setPair s (fun p => { p with heartbeat := false })))

/-! ### Takeover (R517) -/

/-- Inserts the end of a PDAC's hold at an ordinal among its changes. -/
def insertDue (x : PdacDue) : List PdacDue → List PdacDue
  | [] => [x]
  | y :: l => if decide (y.pdac = x.pdac) && (match x.ord, y.ord with
      | some a, some b => decide (a < b)
      | _, _ => false) then x :: y :: l else y :: insertDue x l

/-- The hold of every held PDAC ends at τ. -/
def schedulePdacs (s : State) (tau : Nat) : State :=
  (List.range 8).foldl (fun s d =>
    if (pdacOf s d).held then
      { s with pdac := { s.pdac with due := insertDue { pdac := d, ord := some tau, span := none, code := none, tag := 0 } s.pdac.due } }
    else s) s

/-- Shadowed extents in play-offset order. -/
def insertShadow (x : Shadow) : List Shadow → List Shadow
  | [] => [x]
  | y :: l => if x.first < y.first then x :: y :: l else y :: insertShadow x l

def shadowOrder (l : List Shadow) : List Shadow := l.foldl (fun a x => insertShadow x a) []

/-- Journals the records that the shadow holds: RECORD_OPEN, and RECORD_END of those that have ended. -/
def journalRec (s : State) (n : Nat) : State :=
  match findRec s.store n with
  | none => s
  | some r =>
    let s := jAppend s 0x01 (leBytes 8 n ++ leBytes 1 r.unit ++ leBytes 1 (fld r.header 11 1) ++ leBytes 2 r.source ++ zeros 4 ++
      leBytes 8 (fld r.header 48 8))
    if r.ended then jAppend s 0x07 (leBytes 8 n ++ leBytes 8 (fld r.header 56 8) ++ leBytes 8 (fld r.header 232 8) ++ leBytes 8 (fld r.header 208 8))
    else s

/-- Writes the shadow to the device's own store. -/
def writeShadow (s : State) : State :=
  let l := shadowOrder s.pair.shadow
  let es := l.filterMap (fun x => findExtent s.store x.serial)
  let s := setPair s (fun p => { p with shadow := [] })
  let opened := ((s.caps.flatMap (·.recs)).map (·.number)).filter (fun n => decide (n ≠ 0))
  let s := ((es.flatMap extentRecs) ++ opened).eraseDups.foldl journalRec s
  es.foldl placeExtent s

/-- Table 18-2. The store ID of the former LEAD's store is not told to this device in the messages of Table 18-1: it is a
free value. -/
def takeoverEntry (s : State) (tau : Nat) : State :=
  let (id, s) := takeFree s
  jAppend s 0x0C (leBytes 8 tau ++ leBytes 4 s.pair.term ++ leBytes 8 s.pair.peerSerial ++ leBytes 16 id ++
    leBytes 8 (s.pair.confirmed.foldl Nat.min (2 ^ 64 - 1)))

/-- Promotion. -/
def promote (s : State) : State :=
  let c := cueChan s
  let tau := alignUp (ordNext s c + schedLead s c) 65536
  let s := setPair s (fun p => { p with
    term := p.term + 1, role := 1, sync := false, takeover := tau, markDue := p.confirmed.map some })
  let s := emit s (.flashTerm s.pair.term)
  let s := schedulePdacs (writeShadow (takeoverEntry s tau)) tau
  raise s 0x1202 1 (2 + 256) (some (c, tau))

/-- PROMOTE: PEER_ALIVE is stopped and the heartbeat lost at an eligible UNDERSTUDY. -/
def execPromote (s : State) : Host.Outcome State Fault Refusal :=
  .next (if eligible s && !s.pair.peerAlive && !s.pair.heartbeat then reshareCheck s (promote s) else s)

/-! ### Link (R498, R521) -/

/-- Ends the record open on a unit SHORT at an ordinal. A CONTINUOUS unit goes on with a new record. -/
def shortRecord (s : State) (u n : Nat) : State :=
  if (cap s u).recs.isEmpty then s else
  let whole := (cap s u).recs.any (fun r => r.mode = 2 && !r.final)
  let s := setCap s u (fun x => { x with recs := x.recs.map (fun r =>
    if r.final && r.segs.all (fun g => decide (g.last < n)) then r
    else { r with final := true, flags := r.flags ||| 4
                  segs := (r.segs.filter (fun g => g.first < n)).map (fun g => { g with last := Nat.min g.last (n - 1), flags := g.flags ||| 4 }) }) })
  let s := setCap s u (fun x => { x with e := if whole then some (n - 1) else x.e.map (Nat.min (n - 1)) })
  let s := if whole && (cap s u).armed then
      let r := continuousRec s u n 0
      setCap s u (fun x => { x with recs := x.recs ++ [r], recsArmed := x.recsArmed + 1 })
    else s
  capPlay s u

/-- Of two LEADs this device becomes UNDERSTUDY. -/
def demote (s : State) : State :=
  let n := ordNext s (cueChan s)
  let s := setPair s (fun p => { p with role := 2, sync := false })
  let s := (List.range 16).foldl (fun s u => shortRecord s u n) s
  raise (holdOutputs s) 0x1202 2 1 (cueNow s)

/-- PAIR_LINK_UP: role, term and serial are exchanged. -/
def execPairLinkUp (lanes peerRole peerTerm peerSerial : Nat) (s : State) : Host.Outcome State Fault Refusal :=
  .next (if s.pair.link || !linkMode s || !(decide (lanes = 4) || decide (lanes = 8)) then s
    else
      let both := decide (s.pair.role = 1) && decide (peerRole = 1)
      let mine := both && (decide (s.pair.term < peerTerm) || (decide (s.pair.term = peerTerm) && decide (peerSerial < s.serial)))
      let role := if both && !mine then 2 else peerRole
      let s := setPair s (fun p => { p with
        link := true, lanes := lanes, peerRole := role, peerLead := decide (role = 1), peerTerm := peerTerm, peerSerial := peerSerial })
      let s := raise s 0x1201 0 (1 + 2 * lanes) (cueNow s)
      if mine then demote s else s)

/-- PAIR_LINK_DOWN. -/
def execPairLinkDown (s : State) : Host.Outcome State Fault Refusal := .next (linkFall s)

/-- LANE_DROP: the link runs on four lanes. -/
def execLaneDrop (s : State) : Host.Outcome State Fault Refusal :=
  .next (if s.pair.link then setPair s (fun p => { p with lanes := 4 }) else s)

/-! ### Replication (R509 to R511) -/

/-- CUE_ITEM: a peer's firing becomes a PAIR item of the sheets (R511). -/
def execCueItem (sheet : Fin 8) (cue : Fin 16) (ord : Nat) (s : State) : Host.Outcome State Fault Refusal :=
  .next (if !s.pair.link || !anyRunning s then s
    else { s with cue := { s.cue with arriving := s.cue.arriving ++
      [{ kind := 0x08, inst := 16 * sheet.val + cue.val, ord, tests := [2], flags := 32 }] } })

/-- The effect of a forwarded command, by its opcode, and its status; none for an opcode that no LEAD forwards. -/
def replicate (opcode : Nat) (p : Packet) (data : Fetched) (s : State) : Option (Nat × State) :=
  match opcode with
  | 0x0003 => some (runForwarded (specSetParam p) runSetParam p s)
  | 0x0004 => some (runForwarded specSetMode runSetMode p s)
  | 0x0005 => some (runForwarded specStart runStart p s)
  | 0x0006 => some (runForwarded specStop runStop p s)
  | 0x0411 => some (runForwarded specConvCalLoad runConvCalLoad p s)
  | 0x0440 => some (runForwarded specCalibrate runCalibrate p s)
  | 0x0510 => some (runForwarded specClkSetTime runClkSetTime p s)
  | 0x0710 => some (runForwarded specXfWindowLoad runXfWindowLoad p s)
  | 0x0850 => some (runForwarded specCueLoad runCueLoad p s)
  | 0x0851 => some (runForwarded specCueTask runCueTask p s)
  | 0x0852 => some (runForwarded specMaskLoad runMaskLoad p s)
  | 0x0853 => some (runForwarded specMaskSwap runMaskSwap p s)
  | 0x0854 => some (runForwarded specCueHost runCueHost p s)
  | 0x0950 => some (runForwarded specCapArm runCapArm p s)
  | 0x0951 => some (runForwarded specCapDisarm runCapDisarm p s)
  | 0x0B50 => some (runForwarded specDuPaletteLoad runDuPaletteLoad p s)
  | 0x0B51 => some (runForwarded specDuPaletteSwap runDuPaletteSwap p s)
  | 0x0B52 => some (runForwarded specDuClear runDuClear p s)
  | 0x0B53 => some (runForwarded specDuMapLoad runDuMapLoad p s)
  | 0x0B55 => some (runForwarded specDispClutLoad runDispClutLoad p s)
  | 0x0C21 => some (runForwarded specAeResume runAeResume p s)
  | 0x0C30 => some (runForwarded specAeLoad (runAeLoad data) p s)
  | 0x0C31 => some (runForwarded specAeStart runAeStart p s)
  | 0x0C32 => some (runForwarded specAeStop runAeStop p s)
  | 0x0C33 => some (runForwarded specAeSignal runAeSignal p s)
  | 0x0D40 => some (runForwarded specHbmRehash runHbmRehash p s)
  | _ => none

/-- The cue ordinal of a forwarded command has passed in a channel that it applies to; the cue channel's stands for all. -/
def forwardLate (p : Packet) (s : State) : Bool :=
  pktAt p && running s (cueChan s) && decide (fld (payloadOf p) 0 8 < ordNext s (cueChan s))

/-- CONFIG: a forwarded command arrives at the UNDERSTUDY, with the status that it completed with on the LEAD. -/
def execConfig (opcode leadStatus : Nat) (p : Packet) (data : Fetched) (s : State) : Host.Outcome State Fault Refusal :=
  .next (if !s.pair.link || s.pair.role ≠ 2 then s
    else if opcode = 0x1250 then
      (if anyRunning s then s
       else setPair s (fun x => { x with aligning := some (fld (payloadOf p) 0 6), started := false, sync := false, lostBy := 0 }))
    else if !s.pair.sync then s
    else if forwardLate p s then loseSync s 2
    else match replicate opcode p data s with
      | none => s
      | some (st, t) => if st = leadStatus then t else loseSync t 1)

/-- RATE_STEP: the UNDERSTUDY takes a step of its LEAD at the LEAD's σ (R510). -/
def execRateStep (u : Fin 16) (down : Bool) (sigma : Nat) (s : State) : Host.Outcome State Fault Refusal :=
  .next (if !s.pair.link || s.pair.role ≠ 2 || !s.pair.sync then s
    else if sigma < capProgress s u then loseSync s 2
    else
      let st := s.reduce.stack
      let s := { s with reduce := { s.reduce with stack := if down then u.val :: st else st.erase u.val } }
      scheduleStep s u (if down then (cap s u).step + 1 else (cap s u).step - 1) sigma)

/-! ### Journal heads (R513) -/

/-- The play offset below which every byte of a unit is confirmed on this device. -/
def confirmedHere (s : State) (u : Nat) : Nat :=
  let es := s.store.extents.filter (fun e => decide (e.unit = u) && decide (1 ≤ e.state))
  nth s.pair.play u 0 - ((es.dropWhile (fun e => decide (e.state ≠ 1))).foldl (fun a e => a + payloadBytes e) 0)

/-- Releases what a unit has shadowed below an offset: its ring, its extents, and records of which nothing is left. -/
def releaseShadow (s : State) (u off : Nat) : State :=
  let gone := s.pair.shadow.filter (fun x => decide (x.unit = u) && decide (x.first + x.bytes ≤ off))
  let s := setPair s (fun p => { p with
    confirmed := lmod p.confirmed u (Nat.max off), shadow := p.shadow.filter (fun x => !gone.contains x) })
  let s := gone.foldl (fun s x => setCap s x.unit (fun c => { c with
    playedBytes := c.playedBytes - x.ring, extBytes := tdel c.extBytes x.serial })) s
  setStore s (fun t =>
    let es := t.extents.filter (fun e => !(gone.map (·.serial)).contains e.serial)
    { t with extents := es
             records := t.records.filter (fun r => !(r.ended && !r.sealed && decide (r.unit = u) && decide (r.state ≤ 1) &&
               !es.any (fun e => e.blocks.any (fun b => b.record = r.number)))) })

/-- JOURNAL_HEAD: a LEAD sends its confirmed play offsets; an UNDERSTUDY releases what they confirm. -/
def execJournalHead (offsets : List (Nat × Nat)) (s : State) : Host.Outcome State Fault Refusal :=
  .next (if !s.pair.link then s
    else if s.pair.role = 1 then (if s.pair.sync then sendPair s 5 ((List.range 16).map (confirmedHere s)) else s)
    else if s.pair.role = 2 then offsets.foldl (fun s x => if x.1 < 16 then releaseShadow s x.1 x.2 else s) s
    else s)

/-! ### Cross-check (R514 to R516) -/

/-- The check path's own copy of a channel at the start of an extent: a fresh conditioner with the LEAD's coefficients. -/
def checkStart (s : State) (c : Nat) (e : CheckFacts) : State :=
  e.coefs.foldl (fun s x => setChan s x.1 (fun ch => { ch with coef := bytesCoef x.2 }))
    (setChan s c (fun ch => { ch with hist := [] }))

/-- The conditioned samples that the codes of an extent give, with their indices. -/
def checkConditioned (s : State) (c x : Nat) (e : CheckFacts) : List (Nat × FlagIQ) :=
  (((e.codes.zip e.flags).zipIdx).foldl (fun (a : State × List (Nat × FlagIQ)) y =>
    let n := x + y.2
    let k := if paired s && decide (c = 0) then n % 2 else c
    let s := (e.updates.filter (fun u => decide (u.1 = n))).foldl (fun s u => setChan s u.2.1 (fun ch => { ch with coef := bytesCoef u.2.2 })) a.1
    let stl := decide (n < (chan s c).stlEnd)
    let (s, out) := conditionOne s c n (condSample s k n y.1.1.toInt (y.1.2 && !stl) false)
    (s, match out with
      | some o => if x + 24 ≤ 2 * o.1 then a.2 ++ [o] else a.2
      | none => a.2)) (checkStart s c e, [])).2

/-- The outputs of a zoom on the channel whose input span lies wholly within the extent, from its first such index. -/
def checkZoom (s : State) (x z phase : Nat) (ys : List (Nat × FlagIQ)) : Nat × List FlagIQ :=
  match ys with
  | [] => (0, [])
  | (j, _) :: _ =>
    let t := setZoom (zoomJump s z j) z (fun zm => { zm with phase })
    let k0 := (nth t.zooms z {}).outIndex
    let t := ys.foldl (fun t y => zoomTake t z y.1 y.2) t
    let lost : GapMarker := { source := 0, reason := 0, paired := false, first := x - 1, last := x - 1, sequence := 0 }
    let from_ := match zoomGapRange s z lost with
      | some (_, hi) => Nat.max k0 (hi + 1)
      | none => k0
    (from_, (nth t.zooms z {}).outs.drop (from_ - k0))

/-- A value and its flags, as numbers. -/
def iqNumbers (l : List FlagIQ) : List Int :=
  l.flatMap (fun x => [x.i, x.q, ((b2n x.ovr + 2 * b2n x.stl + 4 * b2n x.sat + 8 * b2n x.gap : Nat) : Int)])

/-- The frames of a stream whose inputs lie wholly within source samples first, first + 1, ... -/
def checkFrames (s : State) (n first : Nat) (xs : List FlagIQ) : List Int :=
  let st := stream s n
  let h := xfH s n
  let len := xfN s n
  if xfRa s n || h = 0 then [] else
  let f0 := cdiv (first - st.origin) h
  let starts := ((List.range (xs.length / h + 1)).map (fun i => st.origin + (f0 + i) * h - first)).filter (fun a => decide (a + len ≤ xs.length))
  starts.flatMap (fun a =>
    let l := (xs.drop a).take len
    let x := spectrumOf (windowOf s n) (toPairs s n l)
    x.e :: ((frameFlags s n l : Nat) : Int) :: x.bins.flatMap (fun m => [m.1, m.2]))

/-- The digest of values and flags in ascending index. -/
def digestOf (l : List Int) : Nat := crc64 (Config.digestBytes l)

/-- The digests that this device computes for an extent, by source code. -/
def checkDigests (s : State) (c x : Nat) (e : CheckFacts) : List (Nat × Nat) :=
  let ys := checkConditioned s c x e
  let zs := (e.phases.filter (fun z => (nth s.zooms z.1 {}).running && decide (zoomChan s z.1 = c))).map (fun z => (z.1, checkZoom s x z.1 z.2 ys))
  let base := match ys with
    | [] => 0
    | (j, _) :: _ => j
  let sources := (0x0100 + c, base, ys.map (·.2)) :: zs.map (fun z => (0x0200 + z.1, z.2.1, z.2.2))
  sources.map (fun a => (a.1, digestOf (iqNumbers a.2.2))) ++
  sources.flatMap (fun a => ((List.range 16).filter (fun n => (stream s n).running && decide (xfSrc s n = a.1))).map (fun n =>
    (0x0300 + n, digestOf (checkFrames s n a.2.1 a.2.2))))

/-- A check that is not made. -/
def checkSkip (s : State) : State := setPair s (fun p => { p with skipped := p.skipped + 1 })

/-- The extent as it is sent, with the digests of what its samples give. -/
def extentOf (s : State) (w : ExtentDraft) : CheckFacts :=
  let e : CheckFacts := { codes := w.codes, flags := w.flags, coefs := w.coefs, updates := w.updates, phases := w.phases
                          digests := [], poison := false, capacity := true }
  { e with digests := checkDigests s w.chan w.x e }

/-- A LEAD sends the extent of a channel at x, where the link carries it; one with a poisoned line is not sent (R500), nor one with a lost
ordinal. -/
def sendExtent (s : State) (c x : Nat) (poison : Bool) : State :=
  if x ≠ s.pair.nextX || !(chan s c).running || decide (ordNext s c < x + 65536) then s
  else
    let after := ((extentChans s).find? (fun k => decide (c < k))).getD ((extentChans s).headD 0)
    let own := s.pair.draft
    let s := setPair s (fun p => { p with nextX := x + par s 0x1204 0, checkChan := after, draft := none })
    match own with
    | none => s
    | some w =>
      if poison then checkSkip s
      else if w.lost then s
      else emit s (.linkExtent c x (extentOf s w))

/-- A check extent at the UNDERSTUDY. -/
def checkExtent (s : State) (c x : Nat) (e : CheckFacts) : State :=
  if e.poison || !e.capacity || !s.pair.sync then checkSkip s
  else
    let own := checkDigests s c x e
    if e.digests.all (fun d => own.contains d) then setPair s (fun p => { p with checks := p.checks + 1 })
    else sendPair (raiseLatched (setPair s (fun p => { p with verdict := true })) 0x1206 c (x % 2 ^ 32) (some (c, x))) 8 []

/-- CHECK_EXTENT. -/
def execCheckExtent (c : Fin 4) (x : Nat) (e : CheckFacts) (s : State) : Host.Outcome State Fault Refusal :=
  .next (if !s.pair.link then s
    else if s.pair.role = 1 then (if s.pair.sync && decide (s.pair.checkChan = c.val) then sendExtent s c x e.poison else s)
    else if s.pair.role = 2 then checkExtent s c x e
    else s)

/-- A device whose own golden extent failed (R516, Table 17-7). -/
def goldenFailed (s : State) (alone : Bool) : State :=
  if alone && decide (par s 0x1205 0 = 1) then enterSafe (logEntry s 0x1281 0x17 0 0 true 4 false) 5
  else logResolved s 0x1281 0x17 0 0

/-- VERDICT: the outcomes of the golden extent on both devices. -/
def execVerdict (leadPass understudyPass : Bool) (s : State) : Host.Outcome State Fault Refusal :=
  .next (if !s.pair.link || s.pair.role = 0 || (s.pair.role = 2 && !s.pair.verdict) then s
    else
      let v := b2n (!leadPass) + 2 * b2n (!understudyPass)
      let s := raise (setPair s (fun p => { p with verdict := false })) 0x1207 0 v (cueNow s)
      let s := if v = 2 then loseSync s 6 else s
      if (if s.pair.role = 1 then leadPass else understudyPass) then s else goldenFailed s (v ≠ 3))

/-! ### IMAGE (R522) -/

/-- The parameters that the configuration of a LEAD replaces: classes 0x04 to 0x10, and the cue channel. -/
def imagePar (key : Nat) : Bool :=
  let id := key / 65536
  (decide (0x0400 ≤ id) && decide (id < 0x1100)) || decide (id = 0x0010)

/-- Reserved values of a packet that carries a table. -/
def imagePacket : Packet := { src := .ring, flags := 0, slots := 0, tag := 0, inst := 0, len := 0, check := 0, payload := [] }

/-- A table goes into force: where a unit holds it twice, in both buffers. -/
def imageTable (s : State) (opcode inst : Nat) (bs : List Byte) : State :=
  let flipMask := fun (s : State) => { s with cue := { s.cue with masks := lmod s.cue.masks inst (fun k => { k with active := 1 - k.active }) } }
  let flipPal := fun (s : State) => setDu s inst (fun d => { d with active := 1 - d.active })
  match opcode with
  | 0x0411 => setChan s inst (fun ch => { ch with coef := bytesCoef bs, calValid := true })
  | 0x0710 => (runXfWindowLoad s imagePacket inst bs none).2.2
  | 0x0850 => (runCueLoad s imagePacket inst bs none).2.2
  | 0x0852 => (runMaskLoad (flipMask (runMaskLoad s imagePacket inst bs none).2.2) imagePacket inst bs none).2.2
  | 0x0B50 => (runDuPaletteLoad (flipPal (runDuPaletteLoad s imagePacket inst bs none).2.2) imagePacket inst bs none).2.2
  | 0x0B53 => (runDuMapLoad s imagePacket inst bs none).2.2
  | 0x0C30 => loadEngine s inst bs
  | _ => s

/-- A resynchronisation waits for the LEAD's configuration. -/
def imageOpen (s : State) : Bool :=
  match liveOp s 0x1240 with
  | some o => decide (o.done = 0)
  | none => false

/-- IMAGE: parameters replace those of the same classes, with what they drive; a table is loaded. -/
def execImage (part : ImagePart) (s : State) : Host.Outcome State Fault Refusal :=
  .next (if !s.pair.link || !imageOpen s then s
    else match part with
      | .params l =>
        let kept := s.params.filter (fun x => !imagePar x.1)
        unitsFollow (paramsDrive s { s with params := (l.filter (fun x => imagePar x.1)).foldl (fun t x => tput t x.1 x.2) kept })
      | .table opcode inst bs => imageTable s opcode inst bs)

end Sys2Proof.Machine
end

