-- ==== Sys2Proof/Machine/Dispatch.lean ====
section
/-! DEFINITION. The dispatcher: one arm per command, each a call of that command's meaning. -/
namespace Sys2Proof.Machine

/-- The effect of a command on everything but the queue. -/
def exec (i : Instr) (s : State) : Host.Outcome State Fault Refusal :=
  match i with
  | .inventory p => Sys2Proof.Machine.execInventory p s
  | .getParam p => Sys2Proof.Machine.execGetParam p s
  | .setParam p => Sys2Proof.Machine.execSetParam p s
  | .setMode p => Sys2Proof.Machine.execSetMode p s
  | .start p => Sys2Proof.Machine.execStart p s
  | .stop p => Sys2Proof.Machine.execStop p s
  | .queryOp p => Sys2Proof.Machine.execQueryOp p s
  | .suspendOp p => Sys2Proof.Machine.execSuspendOp p s
  | .resumeOp p => Sys2Proof.Machine.execResumeOp p s
  | .cancelOp p => Sys2Proof.Machine.execCancelOp p s
  | .clearEvents p => Sys2Proof.Machine.execClearEvents p s
  | .errlogRead p => Sys2Proof.Machine.execErrlogRead p s
  | .errlogClear p => Sys2Proof.Machine.execErrlogClear p s
  | .convCalRead p => Sys2Proof.Machine.execConvCalRead p s
  | .convCalLoad p => Sys2Proof.Machine.execConvCalLoad p s
  | .calibrateConverters p => Sys2Proof.Machine.execCalibrateConverters p s
  | .clkSetTime p => Sys2Proof.Machine.execClkSetTime p s
  | .xfWindowLoad p => Sys2Proof.Machine.execXfWindowLoad p s
  | .xfWindowRead p => Sys2Proof.Machine.execXfWindowRead p s
  | .cueLoad p => Sys2Proof.Machine.execCueLoad p s
  | .cueTask p => Sys2Proof.Machine.execCueTask p s
  | .maskLoad p => Sys2Proof.Machine.execMaskLoad p s
  | .maskSwap p => Sys2Proof.Machine.execMaskSwap p s
  | .cueHost p => Sys2Proof.Machine.execCueHost p s
  | .cueRead p => Sys2Proof.Machine.execCueRead p s
  | .maskRead p => Sys2Proof.Machine.execMaskRead p s
  | .capArm p => Sys2Proof.Machine.execCapArm p s
  | .capDisarm p => Sys2Proof.Machine.execCapDisarm p s
  | .storeFormat p => Sys2Proof.Machine.execStoreFormat p s
  | .storeExport p => Sys2Proof.Machine.execStoreExport p s
  | .replay p => Sys2Proof.Machine.execReplay p s
  | .storeMount p f => Sys2Proof.Machine.execStoreMount p f s
  | .storeUnmount p => Sys2Proof.Machine.execStoreUnmount p s
  | .storeList p => Sys2Proof.Machine.execStoreList p s
  | .storeDelete p => Sys2Proof.Machine.execStoreDelete p s
  | .duPaletteLoad p => Sys2Proof.Machine.execDuPaletteLoad p s
  | .duPaletteSwap p => Sys2Proof.Machine.execDuPaletteSwap p s
  | .duClear p => Sys2Proof.Machine.execDuClear p s
  | .duMapLoad p => Sys2Proof.Machine.execDuMapLoad p s
  | .duLatticeRead p => Sys2Proof.Machine.execDuLatticeRead p s
  | .dispClutLoad p => Sys2Proof.Machine.execDispClutLoad p s
  | .dispEdidRead p edid => Sys2Proof.Machine.execDispEdidRead p edid s
  | .aeFaultRead p => Sys2Proof.Machine.execAeFaultRead p s
  | .aeResume p => Sys2Proof.Machine.execAeResume p s
  | .aeLoad p image => Sys2Proof.Machine.execAeLoad p image s
  | .aeStart p => Sys2Proof.Machine.execAeStart p s
  | .aeStop p => Sys2Proof.Machine.execAeStop p s
  | .aeSignal p => Sys2Proof.Machine.execAeSignal p s
  | .hbmRehash p => Sys2Proof.Machine.execHbmRehash p s
  | .scrubFull p => Sys2Proof.Machine.execScrubFull p s
  | .dmaChain p => Sys2Proof.Machine.execDmaChain p s
  | .dmaStop p => Sys2Proof.Machine.execDmaStop p s
  | .dmaCopy p data => Sys2Proof.Machine.execDmaCopy p data s
  | .tiuAnchorRead p => Sys2Proof.Machine.execTiuAnchorRead p s
  | .marginReplan p => Sys2Proof.Machine.execMarginReplan p s
  | .hmAgeingRead p => Sys2Proof.Machine.execHmAgeingRead p s
  | .pairResync p => Sys2Proof.Machine.execPairResync p s
  | .pairAlign p => Sys2Proof.Machine.execPairAlign p s
  | .selfTest p => Sys2Proof.Machine.execSelfTest p s
  | .dbgChallenge p => Sys2Proof.Machine.execDbgChallenge p s
  | .dbgUnlock p => Sys2Proof.Machine.execDbgUnlock p s
  | .keyGenerate p => Sys2Proof.Machine.execKeyGenerate p s
  | .keyImport p => Sys2Proof.Machine.execKeyImport p s
  | .keyErase p => Sys2Proof.Machine.execKeyErase p s
  | .keyImportPubkey p => Sys2Proof.Machine.execKeyImportPubkey p s
  | .fwUpdate p => Sys2Proof.Machine.execFwUpdate p s
  | .fwCommit p => Sys2Proof.Machine.execFwCommit p s
  | .cmdDoorbell v undefined => Sys2Proof.Machine.execCmdDoorbell v s undefined
  | .cmdResync => Sys2Proof.Machine.execCmdResync s
  | .cmdEn v => Sys2Proof.Machine.execCmdEn v s
  | .rplEn v => Sys2Proof.Machine.execRplEn v s
  | .evtEn v => Sys2Proof.Machine.execEvtEn v s
  | .rplHead v => Sys2Proof.Machine.execRplHead v s
  | .evtHead v => Sys2Proof.Machine.execEvtHead v s
  | .registerWrite sp addr bytes => Sys2Proof.Machine.execRegisterWrite sp addr bytes s
  | .heldReplyPosted => Sys2Proof.Machine.execHeldReplyPosted s
  | .eventsLost d => Sys2Proof.Machine.execEventsLost d s
  | .go m ack => Sys2Proof.Machine.execGo m ack s
  | .rplAck m => Sys2Proof.Machine.execRplAck m s
  | .evtWindowRemove m => Sys2Proof.Machine.execEvtWindowRemove m s
  | .smbusWriteWord addr pecBad dev code => Sys2Proof.Machine.execSmbusWriteWord addr pecBad s dev code
  | .smbusBlockTransfer write bytes count pecBad dev code => Sys2Proof.Machine.execSmbusBlockTransfer write bytes count pecBad s dev code
  | .dmaKick mask => Sys2Proof.Machine.execDmaKick mask s
  | .busMasterEnable v => Sys2Proof.Machine.execBusMasterEnable v s
  | .rstNAssert => Sys2Proof.Machine.execRstNAssert s
  | .rstNRelease f => Sys2Proof.Machine.execRstNRelease f s
  | .bootComplete hbmStacks timeMs m gauges monitors => Sys2Proof.Machine.execBootComplete hbmStacks timeMs m gauges monitors s
  | .powerLoss => Sys2Proof.Machine.execPowerLoss s
  | .watchdogReset => Sys2Proof.Machine.execWatchdogReset s
  | .hostLinkReset cause => Sys2Proof.Machine.execHostLinkReset cause s
  | .hostLinkTrained gen width flit => Sys2Proof.Machine.execHostLinkTrained gen width flit s
  | .clrNFall => Sys2Proof.Machine.execClrNFall s
  | .clrNRise => Sys2Proof.Machine.execClrNRise s
  | .wakeBall => Sys2Proof.Machine.execWakeBall s
  | .wakeTimerExpiry => Sys2Proof.Machine.execWakeTimerExpiry s
  | .modeChanged => Sys2Proof.Machine.execModeChanged s
  | .cuePointApply => Sys2Proof.Machine.execCuePointApply s
  | .opStepBoundary handle f => Sys2Proof.Machine.execOpStepBoundary handle f s
  | .refinLost windowHz => Sys2Proof.Machine.execRefinLost s windowHz
  | .refinQualified hz => Sys2Proof.Machine.execRefinQualified hz s
  | .xoLost hz => Sys2Proof.Machine.execXoLost s hz
  | .xoPresent hz => Sys2Proof.Machine.execXoPresent s hz
  | .clkLock pll diff => Sys2Proof.Machine.execClkLock pll diff s
  | .ppsEdge intervalNs st elapsedS sinceSetNs => Sys2Proof.Machine.execPpsEdge intervalNs st elapsedS s sinceSetNs
  | .ppsLost => Sys2Proof.Machine.execPpsLost s
  | .pgPulse g late => Sys2Proof.Machine.execPgPulse g late s
  | .trgOutPulse o late => Sys2Proof.Machine.execTrgOutPulse o late s
  | .pdacUpdate d late => Sys2Proof.Machine.execPdacUpdate d late s
  | .pdacCompliance d reading => Sys2Proof.Machine.execPdacCompliance d reading s
  | .producerBufferFull p first => Sys2Proof.Machine.execProducerBufferFull p first s
  | .gap p resume => Sys2Proof.Machine.execGap p resume s
  | .gapMarkerReceived b m => Sys2Proof.Machine.execGapMarkerReceived b m s
  | .heldEventWindowEnd code inst => Sys2Proof.Machine.execHeldEventWindowEnd code inst s
  | .convLos c => Sys2Proof.Machine.execConvLos c s
  | .bgcalUpdate c => Sys2Proof.Machine.execBgcalUpdate c s
  | .convCalStale c fs => Sys2Proof.Machine.execConvCalStale c fs s
  | .zoomBlock z => Sys2Proof.Machine.execZoomBlock z s
  | .frameRecord n => Sys2Proof.Machine.execFrameRecord n s
  | .itemRehearse => Sys2Proof.Machine.execItemRehearse s
  | .sheetPlay n => Sys2Proof.Machine.execSheetPlay n s
  | .cueTimeout sheet => Sys2Proof.Machine.execCueTimeout sheet s
  | .cueTimerTick t => Sys2Proof.Machine.execCueTimerTick t s
  | .recordRollover u => Sys2Proof.Machine.execRecordRollover u s
  | .rateStepDecision below25For1s => Sys2Proof.Machine.execRateStepDecision below25For1s s
  | .captureRateStep u => Sys2Proof.Machine.execCaptureRateStep u s
  | .extentClose u => Sys2Proof.Machine.execExtentClose u s
  | .extentWriteCompletion serial copy => Sys2Proof.Machine.execExtentWriteCompletion serial copy s
  | .storeWriteFailed serial copy reason thirdIn10s => Sys2Proof.Machine.execStoreWriteFailed serial copy reason thirdIn10s s
  | .storeMemberLost m => Sys2Proof.Machine.execStoreMemberLost m s
  | .journalWrite => Sys2Proof.Machine.execJournalWrite s
  | .checkpoint => Sys2Proof.Machine.execCheckpoint s
  | .fedFrame u => Sys2Proof.Machine.execFedFrame u s
  | .frameStart o => Sys2Proof.Machine.execFrameStart o s
  | .hpdPlug o sink => Sys2Proof.Machine.execHpdPlug o sink s
  | .hpdUnplug o => Sys2Proof.Machine.execHpdUnplug o s
  | .irqHpd o linkOk sink => Sys2Proof.Machine.execIrqHpd o linkOk sink s
  | .auxSlotResult codes overload checkCodes => Sys2Proof.Machine.execAuxSlotResult codes overload checkCodes s
  | .cmpCrossing n microVolts st fast => Sys2Proof.Machine.execCmpCrossing n microVolts st fast s
  | .evEdge k rising st sinceLastPs => Sys2Proof.Machine.execEvEdge k rising st sinceLastPs s
  | .gaugeReading factors => Sys2Proof.Machine.execGaugeReading factors s
  | .shedLevelEntry q level deviation => Sys2Proof.Machine.execShedLevelEntry q level deviation s
  | .shedLevelRecovery deviations => Sys2Proof.Machine.execShedLevelRecovery deviations s
  | .ioRailWarning region => Sys2Proof.Machine.execIoRailWarning region s
  | .thermalTrip => Sys2Proof.Machine.execThermalTrip s
  | .thermalWarn q tempDeci => Sys2Proof.Machine.execThermalWarn q tempDeci s
  | .regionSkew lower voltage temperature => Sys2Proof.Machine.execRegionSkew lower voltage temperature s
  | .pmbusPoll q f => Sys2Proof.Machine.execPmbusPoll q f s
  | .regulationReached q reached => Sys2Proof.Machine.execRegulationReached q reached s
  | .replanAutoStart scheduled => Sys2Proof.Machine.execReplanAutoStart scheduled s
  | .ageingEntry => Sys2Proof.Machine.execAgeingEntry s
  | .lifeMinute tjDeci => Sys2Proof.Machine.execLifeMinute tjDeci s
  | .aliveCount => Sys2Proof.Machine.execAliveCount s
  | .unitErrorDetected code kind inst detail => Sys2Proof.Machine.execUnitErrorDetected code kind inst detail s
  | .errorRecovery => Sys2Proof.Machine.execErrorRecovery s
  | .hbmRequest pc arrivals elapsedNs ecc => Sys2Proof.Machine.execHbmRequest pc arrivals elapsedNs ecc s
  | .rowIdleClose bank => Sys2Proof.Machine.execRowIdleClose bank s
  | .scrubLine ecc awaited overtaken => Sys2Proof.Machine.execScrubLine ecc awaited overtaken s
  | .bankImbalance => Sys2Proof.Machine.execBankImbalance s
  | .eyeRecentre stack => Sys2Proof.Machine.execEyeRecentre stack s
  | .selfRefreshEntry stack => Sys2Proof.Machine.execSelfRefreshEntry stack s
  | .selfRefreshExit stack => Sys2Proof.Machine.execSelfRefreshExit stack s
  | .descriptorFetch c d => Sys2Proof.Machine.execDescriptorFetch c d s
  | .descriptorRepoll c d => Sys2Proof.Machine.execDescriptorRepoll c d s
  | .descriptorComplete c => Sys2Proof.Machine.execDescriptorComplete c s
  | .dmaFlushTimeout c => Sys2Proof.Machine.execDmaFlushTimeout c s
  | .storeBufferDrain e => Sys2Proof.Machine.execStoreBufferDrain e s
  | .signalTaken e => Sys2Proof.Machine.execSignalTaken e s
  | .loadDataArrival e => Sys2Proof.Machine.execLoadDataArrival e s
  | .mbData e => Sys2Proof.Machine.execMbData e s
  | .ipData e => Sys2Proof.Machine.execIpData e s
  | .opData e => Sys2Proof.Machine.execOpData e s
  | .opEnd e => Sys2Proof.Machine.execOpEnd e s
  | .sigsend e => Sys2Proof.Machine.execSigsend e s
  | .nop e => Sys2Proof.Machine.execNop e s
  | .dmac e a b c => Sys2Proof.Machine.execDmac e a b c s
  | .qmac e a b c => Sys2Proof.Machine.execQmac e a b c s
  | .rmac e a b c => Sys2Proof.Machine.execRmac e a b c s
  | .accrd e a b c => Sys2Proof.Machine.execAccrd e a b c s
  | .accrd18 e a b c => Sys2Proof.Machine.execAccrd18 e a b c s
  | .accld e a b c => Sys2Proof.Machine.execAccld e a b c s
  | .accclr e a b c => Sys2Proof.Machine.execAccclr e a b c s
  | .add e a b c => Sys2Proof.Machine.execAdd e a b c s
  | .adds e a b c => Sys2Proof.Machine.execAdds e a b c s
  | .sub e a b c => Sys2Proof.Machine.execSub e a b c s
  | .subs e a b c => Sys2Proof.Machine.execSubs e a b c s
  | .and e a b c => Sys2Proof.Machine.execAnd e a b c s
  | .or e a b c => Sys2Proof.Machine.execOr e a b c s
  | .xor e a b c => Sys2Proof.Machine.execXor e a b c s
  | .mov e a b c => Sys2Proof.Machine.execMov e a b c s
  | .shli e a b c => Sys2Proof.Machine.execShli e a b c s
  | .shri e a b c => Sys2Proof.Machine.execShri e a b c s
  | .sari e a b c => Sys2Proof.Machine.execSari e a b c s
  | .rndi e a b c => Sys2Proof.Machine.execRndi e a b c s
  | .sat18i e a b c => Sys2Proof.Machine.execSat18i e a b c s
  | .cmp e a b c => Sys2Proof.Machine.execCmp e a b c s
  | .cmpu e a b c => Sys2Proof.Machine.execCmpu e a b c s
  | .min e a b c => Sys2Proof.Machine.execMin e a b c s
  | .max e a b c => Sys2Proof.Machine.execMax e a b c s
  | .abs e a b c => Sys2Proof.Machine.execAbs e a b c s
  | .neg e a b c => Sys2Proof.Machine.execNeg e a b c s
  | .pack16 e a b c => Sys2Proof.Machine.execPack16 e a b c s
  | .addi e a b c => Sys2Proof.Machine.execAddi e a b c s
  | .movi e a b c => Sys2Proof.Machine.execMovi e a b c s
  | .ldw e d a m am => Sys2Proof.Machine.execLdw e d a m am s
  | .ldh e d a m am => Sys2Proof.Machine.execLdh e d a m am s
  | .ldhu e d a m am => Sys2Proof.Machine.execLdhu e d a m am s
  | .ldt e d a m am => Sys2Proof.Machine.execLdt e d a m am s
  | .ldp e d a m am => Sys2Proof.Machine.execLdp e d a m am s
  | .ldc16 e d a m am => Sys2Proof.Machine.execLdc16 e d a m am s
  | .ldc24 e d a m am => Sys2Proof.Machine.execLdc24 e d a m am s
  | .stw e d a m am => Sys2Proof.Machine.execStw e d a m am s
  | .sth e d a m am => Sys2Proof.Machine.execSth e d a m am s
  | .stt e d a m am => Sys2Proof.Machine.execStt e d a m am s
  | .stp e d a m am => Sys2Proof.Machine.execStp e d a m am s
  | .stc16 e d a m am => Sys2Proof.Machine.execStc16 e d a m am s
  | .gather e d a m am => Sys2Proof.Machine.execGather e d a m am s
  | .pref e d a m am => Sys2Proof.Machine.execPref e d a m am s
  | .cadds e d a m am => Sys2Proof.Machine.execCadds e d a m am s
  | .cmax e d a m am => Sys2Proof.Machine.execCmax e d a m am s
  | .cmin e d a m am => Sys2Proof.Machine.execCmin e d a m am s
  | .cor e d a m am => Sys2Proof.Machine.execCor e d a m am s
  | .adda e a m => Sys2Proof.Machine.execAdda e a m s
  | .suba e a m => Sys2Proof.Machine.execSuba e a m s
  | .cira e a m => Sys2Proof.Machine.execCira e a m s
  | .br e x => Sys2Proof.Machine.execBr e x s
  | .bz e x => Sys2Proof.Machine.execBz e x s
  | .bnz e x => Sys2Proof.Machine.execBnz e x s
  | .bn e x => Sys2Proof.Machine.execBn e x s
  | .bnn e x => Sys2Proof.Machine.execBnn e x s
  | .blc e x => Sys2Proof.Machine.execBlc e x s
  | .jal e x => Sys2Proof.Machine.execJal e x s
  | .jr e x => Sys2Proof.Machine.execJr e x s
  | .rets e x => Sys2Proof.Machine.execRets e x s
  | .rete e x => Sys2Proof.Machine.execRete e x s
  | .halt e x => Sys2Proof.Machine.execHalt e x s
  | .safept e x => Sys2Proof.Machine.execSafept e x s
  | .sigwait e x => Sys2Proof.Machine.execSigwait e x s
  | .evt e x => Sys2Proof.Machine.execEvt e x s
  | .wmark e x => Sys2Proof.Machine.execWmark e x s
  | .gets e x => Sys2Proof.Machine.execGets e x s
  | .puts e x => Sys2Proof.Machine.execPuts e x s
  | .mova e x => Sys2Proof.Machine.execMova e x s
  | .movad e x => Sys2Proof.Machine.execMovad e x s
  | .movm e x => Sys2Proof.Machine.execMovm e x s
  | .fence e x => Sys2Proof.Machine.execFence e x s
  | .brk e x => Sys2Proof.Machine.execBrk e x s
  | .repeatN e r imm => Sys2Proof.Machine.execRepeatN e r imm s
  | .ldiD e r imm => Sys2Proof.Machine.execLdiD e r imm s
  | .ldiA e r imm => Sys2Proof.Machine.execLdiA e r imm s
  | .ldiM e r imm => Sys2Proof.Machine.execLdiM e r imm s
  | .ldiB e r imm => Sys2Proof.Machine.execLdiB e r imm s
  | .ldiL e r imm => Sys2Proof.Machine.execLdiL e r imm s
  | .ldiLC e r imm => Sys2Proof.Machine.execLdiLC e r imm s
  | .extest shift => Sys2Proof.Machine.execExtest shift s
  | .samplePreload shift => Sys2Proof.Machine.execSamplePreload shift s
  | .idcode shift => Sys2Proof.Machine.execIdcode shift s
  | .highz shift => Sys2Proof.Machine.execHighz shift s
  | .clamp shift => Sys2Proof.Machine.execClamp shift s
  | .extestPulse shift => Sys2Proof.Machine.execExtestPulse shift s
  | .extestTrain shift => Sys2Proof.Machine.execExtestTrain shift s
  | .dbgAccess shift => Sys2Proof.Machine.execDbgAccess shift s
  | .bypass shift => Sys2Proof.Machine.execBypass shift s
  | .testLogicReset => Sys2Proof.Machine.execTestLogicReset s
  | .aliveToggle => Sys2Proof.Machine.execAliveToggle s
  | .peerAliveStopped => Sys2Proof.Machine.execPeerAliveStopped s
  | .heartbeat peer => Sys2Proof.Machine.execHeartbeat peer s
  | .heartbeatLost => Sys2Proof.Machine.execHeartbeatLost s
  | .promote => Sys2Proof.Machine.execPromote s
  | .pairLinkUp lanes peerRole peerTerm peerSerial => Sys2Proof.Machine.execPairLinkUp lanes peerRole peerTerm peerSerial s
  | .laneDrop => Sys2Proof.Machine.execLaneDrop s
  | .cueItem sheet cue ord => Sys2Proof.Machine.execCueItem sheet cue ord s
  | .config opcode leadStatus p data => Sys2Proof.Machine.execConfig opcode leadStatus p data s
  | .rateStep u down sigma => Sys2Proof.Machine.execRateStep u down sigma s
  | .journalHead offsets => Sys2Proof.Machine.execJournalHead offsets s
  | .align mine mean => Sys2Proof.Machine.execAlign mine mean s
  | .pairAligned => Sys2Proof.Machine.execPairAligned s
  | .checkExtent c x e => Sys2Proof.Machine.execCheckExtent c x e s
  | .verdict leadPass understudyPass => Sys2Proof.Machine.execVerdict leadPass understudyPass s
  | .image part => Sys2Proof.Machine.execImage part s
  | .sampleWord c code ovr => Sys2Proof.Machine.execSampleWord c code ovr s
  | .scanInstant o fetched poison => Sys2Proof.Machine.execScanInstant o fetched poison s
  | .bankRefresh bank => Sys2Proof.Machine.execBankRefresh bank s
  | .completionTimeout c => Sys2Proof.Machine.execCompletionTimeout c s
  | .irqHoldoffExpiry vector => Sys2Proof.Machine.execIrqHoldoffExpiry vector s
  | .powerOnMonitorRelease f => Sys2Proof.Machine.execPowerOnMonitorRelease f s
  | .peerAliveEdge => Sys2Proof.Machine.execPeerAliveEdge s
  | .pairLinkDown => Sys2Proof.Machine.execPairLinkDown s
  | .hostLinkRetrain gen width flit => Sys2Proof.Machine.execHostLinkRetrain gen width flit s
  | .safeptDeadline e => Sys2Proof.Machine.execSafeptDeadline e s

end Sys2Proof.Machine
end

