-- ==== Sys2Proof/Safety.lean ====
section
/-! DEFINITION. The terms that statements use: canonical memories, an accepted packet and its completion, what events
change, and an engine that issues one operation alone. -/
namespace Sys2Proof.Machine

/-- Every memory of the part is in canonical form: HBM, the ring window, the MSI-X table, both CMD_BUFs, the local
memory of every engine and the shared memory of every cluster. -/
def memoriesOk (s : State) : Bool :=
  s.hbm.mem.wf && s.host.window.wf && s.host.msix.wf && s.spi.cmdBuf.wf && s.smbus.cmdBuf.wf &&
  s.engines.all (fun x => x.2.loc.wf) && s.clusters.all (fun c => c.2.shared.wf)

/-- A safe run never stops: every command is answered by a next state. -/
def answers (o : Host.Outcome State Fault Refusal) : Bool :=
  match o with
  | .next _ => true
  | _ => false

/-! ### Packets -/

/-- The payload of the opcode's own: behind the cue ordinal where AT_ORDINAL is set (R59). -/
def ownOf (p : Packet) : List Byte := if pktAt p then (payloadOf p).drop 8 else payloadOf p

/-- The cue ordinal of an AT_ORDINAL packet. -/
def ordOf (p : Packet) : Option Nat := if pktAt p then some (fld (payloadOf p) 0 8) else none

/-- The packet can be read from its source now, is framed and checked well, and passes every step of Table 2-7. -/
def accepted (c : CmdSpec) (p : Packet) (s : State) : Bool :=
  readable s c.opcode p && (frameCheck c.opcode p).isNone && (checks true c (consume s p) p).isNone

/-- What completing a packet adds to its effect: the copy for the UNDERSTUDY, and the reply. -/
def completed (opcode : Nat) (p : Packet) (st : Nat) (out : List Byte) (s : State) : State :=
  reply (forward s opcode p (ownOf p) st out) opcode p st out

/-! ### What is told to the outside -/

/-- The fields of the rings that an event may change. -/
def toldRings (r t : Rings) : Rings :=
  { r with evtTail := t.evtTail, evtOverflow := t.evtOverflow, evtLost := t.evtLost, lossPending := t.lossPending, seq := t.seq }

/-- The fields of a mailbox that an event may change. -/
def toldMbx (b t : Mailbox) : Mailbox :=
  { b with fifo := t.fifo, seq := t.seq, lost := t.lost, lossPending := t.lossPending, evtLostFlag := t.evtLostFlag }

/-- s, but for what posting events, making error-log entries, signalling vectors and taking free values changes, which is
as in t. A statement `t = told {s with …} t` names everything else that t changes. -/
def told (s t : State) : State :=
  { s with ring := toldRings s.ring t.ring, spi := toldMbx s.spi t.spi, smbus := toldMbx s.smbus t.smbus, ev := t.ev
           fresh := t.fresh, out := t.out
           host := { s.host with sticky := t.host.sticky, pba := t.host.pba, parked := t.host.parked, holding := t.host.holding, due := t.host.due }
           health := { s.health with log := t.health.log, seq := t.health.seq, overflow := t.health.overflow, today := t.health.today } }

/-! ### Engines -/

/-- No result is outstanding, no branch or REPEAT is in progress. -/
def quiet (x : Engine) : Bool := x.loads.isEmpty && x.chain.isEmpty && x.branch.isNone && x.rep.isNone

/-- Engine e issues the bundle w at its PC, and w meets no fault. -/
def issues (s : State) (e w : Nat) : Bool :=
  canIssue s e && decide (bundleAt s e = w) && (worst (bundleFaults s e w)).isNone

/-- What every bundle that issues does to a quiet engine: PC, the hold count and its peak, the bundle count. -/
def retired (x : Engine) : Engine :=
  { x with pc := (x.pc + 1) % 4096, hold := holdNow x + 1, holdPeak := Nat.max x.holdPeak (holdNow x + 1),
           bundles := (x.bundles + 1) % 2 ^ 64 }

/-- s, but for what the bundles of an engine may reach: engines, clusters, the bytes of HBM and their poison, capture
units (a product), the cue sheets' arriving items (EVT), the mode unit (a wake) and what `told` names. -/
def engTold (s t : State) : State :=
  told { s with engines := t.engines, clusters := t.clusters, md := t.md, caps := t.caps
                cue := { s.cue with arriving := t.cue.arriving }
                hbm := { s.hbm with mem := t.hbm.mem, poisoned := t.hbm.poisoned, patched := t.hbm.patched } } t

/-- No byte of memory differs: HBM, every cluster's shared memory, every engine's local memory. -/
def sameMemory (s t : State) : Prop :=
  t.hbm.mem = s.hbm.mem ∧ (∀ c, (tgetD t.clusters c {}).shared = (tgetD s.clusters c {}).shared) ∧
  ∀ e, (eng t e).loc = (eng s e).loc

end Sys2Proof.Machine
end

