-- ==== Sys2Proof/Certificates/Slice0/Obligations.lean ====
section
/-! DEFINITION. The statements for the provers: what the commands of the OL9640 do, by the rules of the spec, and what
every step keeps. Where a statement gives `t = told {…} t`, the posting of events, error-log entries, vectors and free
values may change what `told` names, and nothing else differs. -/
open Sys2Proof Sys2Proof.Machine

namespace Sys2Proof.Machine

/-- Every packet command with its spec. -/
def packetRows (p : Packet) (mf : MountFacts) (edid : List Byte) (img data : Fetched) : List (CmdSpec × Instr) :=
  [(specInventory, .inventory p), (specGetParam, .getParam p), (specSetParam p, .setParam p), (specSetMode, .setMode p), (specStart, .start p),
   (specStop, .stop p), (specQueryOp, .queryOp p), (specSuspendOp, .suspendOp p), (specResumeOp, .resumeOp p), (specCancelOp, .cancelOp p),
   (specClearEvents, .clearEvents p), (specErrlogRead, .errlogRead p), (specErrlogClear, .errlogClear p), (specConvCalRead, .convCalRead p),
   (specConvCalLoad, .convCalLoad p), (specCalibrate, .calibrateConverters p), (specClkSetTime, .clkSetTime p)] ++
  [(specXfWindowLoad, .xfWindowLoad p), (specXfWindowRead, .xfWindowRead p), (specCueLoad, .cueLoad p), (specCueTask, .cueTask p),
   (specMaskLoad, .maskLoad p), (specMaskSwap, .maskSwap p), (specCueHost, .cueHost p), (specCueRead, .cueRead p), (specMaskRead, .maskRead p),
   (specCapArm, .capArm p), (specCapDisarm, .capDisarm p), (specStoreFormat, .storeFormat p), (specStoreExport, .storeExport p),
   (specReplay, .replay p), (specStoreMount, .storeMount p mf), (specStoreUnmount, .storeUnmount p), (specStoreList, .storeList p),
   (specStoreDelete, .storeDelete p)] ++
  [(specDuPaletteLoad, .duPaletteLoad p), (specDuPaletteSwap, .duPaletteSwap p), (specDuClear, .duClear p), (specDuMapLoad, .duMapLoad p),
   (specDuLatticeRead, .duLatticeRead p), (specDispClutLoad, .dispClutLoad p), (specDispEdidRead, .dispEdidRead p edid),
   (specAeFaultRead, .aeFaultRead p), (specAeResume, .aeResume p), (specAeLoad, .aeLoad p img), (specAeStart, .aeStart p),
   (specAeStop, .aeStop p), (specAeSignal, .aeSignal p), (specHbmRehash, .hbmRehash p), (specScrubFull, .scrubFull p)] ++
  [(specDmaChain, .dmaChain p), (specDmaStop, .dmaStop p), (specDmaCopy, .dmaCopy p data), (specTiuAnchorRead, .tiuAnchorRead p),
   (specMarginReplan, .marginReplan p), (specHmAgeingRead, .hmAgeingRead p), (specPairResync, .pairResync p), (specPairAlign, .pairAlign p),
   (specSelfTest, .selfTest p), (specDbgChallenge, .dbgChallenge p), (specDbgUnlock, .dbgUnlock p), (specKeyGenerate, .keyGenerate p),
   (specKeyImport, .keyImport p), (specKeyErase, .keyErase p), (specKeyImportPubkey, .keyImportPubkey p), (specFwUpdate, .fwUpdate p),
   (specFwCommit, .fwCommit p)]

end Sys2Proof.Machine

/-- A step takes the command at the front of the queue and runs it with the queue's rest. The model's choice (assumption
1): on an empty queue the block idles. Every command is answered by a next state in every state: nothing stops the
block. The model's choices: assumptions 1 and 13. -/
def Obligations.StepRunsFront : Prop :=
  (∀ (c : Instr) (rest : List Instr) (s : State), s.pending = c :: rest → step s = exec c { s with pending := rest }) ∧
  (∀ s : State, s.pending = [] → step s = .next s) ∧
  (∀ (c : Instr) (s : State), ∃ t, exec c s = .next t)

/-- A step takes one command off the queue and no command puts one there; what leaves the device is not taken back; the
variant, the stepping and the serial number never change, and the anti-rollback counter of the fuses never falls
(R554). The model's choices: assumptions 25 and 64. -/
def Obligations.StepsKeepQueueOutputsIdentity : Prop :=
  ∀ s t : State, step s = .next t → t.pending = s.pending.drop 1 ∧ (∃ more, t.out = s.out ++ more) ∧
    t.variant = s.variant ∧ t.die = s.die ∧ t.serial = s.serial ∧ s.sec.counter ≤ t.sec.counter

/-- Every memory of the part (HBM, the ring window, the MSI-X table, both CMD_BUFs, local and shared memories) keeps its
canonical form at every step, from every state that has it; so does the list of the four main channels, saved ones
included. The model's choices: assumption 4. -/
def Obligations.StepsKeepMemoriesCanonical : Prop :=
  ∀ s t : State, step s = .next t →
    (memoriesOk s = true → memoriesOk t = true) ∧
    (s.chans.length = 4 → (∀ c, s.saved = some c → c.coefs.length = 4) →
      t.chans.length = 4 ∧ ∀ c, t.saved = some c → c.coefs.length = 4)

/-- Table 3-3, Table 2-1 to 2-3, R422, R410, R455: what the spec says reset leaves. The model's choices: assumptions 3, 5,
33, 37 and 42. -/
def Obligations.ResetLeavesBoot : Prop :=
  let s := State.reset
  s.md.mode = .boot ∧ s.md.transit.map (·.target) = some .idle ∧ s.pending = [] ∧ s.pend = [] ∧ s.ops = [] ∧
  s.ring.cmdEn = false ∧ s.ring.rplEn = false ∧ s.ring.evtEn = false ∧ s.ring.cmdHead = 0 ∧ s.ring.doorbell = 0 ∧
  s.ring.rplTail = 0 ∧ s.ring.evtTail = 0 ∧ s.host.sticky = 0 ∧ s.host.stickyIrq = 0 ∧ s.host.holdoff = 0 ∧
  s.host.masked = List.range 64 ∧ s.host.funcMask = true ∧ s.host.pba = [] ∧ s.host.bme = false ∧
  anyRunning s = false ∧ (∀ d, d < 8 → (pdacOf s d).cleared = true) ∧ s.sec.debug = none ∧
  (∀ e, (eng s e).st = .stopped) ∧ s.hbm.mem = [] ∧ s.params = [] ∧ memoriesOk s = true ∧ s.chans.length = 4 ∧ s.saved = none

/-- R51, R53, R84, R89, R96, R99: a packet that its source does not present now has no effect; BOOT and DORMANT serve
none. R57, R58: one that fails framing or check is answered, and halts the ring if it came from there. R63 to R65: one
that fails a check of Table 2-7 is answered with that step's status, and does nothing else but for R64: the turn
passes to the next source. A fault of the stage manager's that a check answers is answered once. The model's choices:
assumptions 9, 10 and 65. -/
def Obligations.PacketsAreCheckedFirst : Prop :=
  ∀ (p : Packet) (mf : MountFacts) (edid : List Byte) (img data : Fetched) (s : State),
    ∀ r ∈ packetRows p mf edid img data,
      (s.md.mode = .boot ∨ s.md.mode = .dormant → exec r.2 s = .next s) ∧
      (readable s r.1.opcode p = false → exec r.2 s = .next s) ∧
      (∀ st, readable s r.1.opcode p = true → frameCheck r.1.opcode p = some st → p.src = .ring →
        exec r.2 s = .next (haltRing s r.1.opcode p st (r.1.fail s p.inst.toNat (payloadOf p) 1 st))) ∧
      (∀ st, readable s r.1.opcode p = true → frameCheck r.1.opcode p = some st → p.src ≠ .ring →
        exec r.2 s = .next (reply (consume s p) r.1.opcode p st (r.1.fail s p.inst.toNat (payloadOf p) 1 st))) ∧
      (∀ k st, readable s r.1.opcode p = true → frameCheck r.1.opcode p = none → checks true r.1 (consume s p) p = some (k, st) →
        exec r.2 s = .next (reply (smpAnswered (consume s p) st) r.1.opcode p st (r.1.fail (consume s p) p.inst.toNat (ownOf p) k st)))

/-- R58, over every packet command: a packet of the command ring that fails its check (BAD_CRC) or is not well framed
(BAD_PARAM) is answered, sets CMD_HALT with the latched event 0x0201, leaves CMD_HEAD at itself and has no other
effect but that the next source has its turn (R64); until CMD_RESYNC, which discards up to the doorbell, no packet of
the ring is read. -/
def Obligations.BadPacketHaltsTheRing : Prop :=
  ∀ (p : Packet) (mf : MountFacts) (edid : List Byte) (img data : Fetched) (s : State) (st : Nat),
    ∀ r ∈ packetRows p mf edid img data,
      p.src = .ring → readable s r.1.opcode p = true → frameCheck r.1.opcode p = some st →
      let bytes := replyBytes r.1.opcode st p (r.1.fail s p.inst.toNat (payloadOf p) 1 st)
      (st = stBAD_CRC ∨ st = stBAD_PARAM) ∧ (checkable p = true → (st = stBAD_CRC ↔ crcOk r.1.opcode p = false)) ∧
      ∃ t, exec r.2 s = .next t ∧
        t.ring.cmdHalt = true ∧ t.ring.cmdHead = s.ring.cmdHead ∧ (0x0201, 0) ∈ t.ev.latches ∧
        (s.ring.rplEn = true → cdiv bytes.length 64 ≤ rplFree s.ring →
          Output.reply (s.ring.rplBase + 64 * s.ring.rplTail) (bytes.take 64) ∈ t.out ∧
          t.ring.rplTail = (s.ring.rplTail + cdiv bytes.length 64) % 2 ^ s.ring.rplSize) ∧
        (s.ring.rplEn = true → rplFree s.ring < cdiv bytes.length 64 → t.ring.held = some bytes) ∧
        t = told { s with ring := { s.ring with cmdHalt := true, turn := 1, rplTail := t.ring.rplTail, rplStall := t.ring.rplStall
                                                held := t.ring.held, rplDropped := t.ring.rplDropped } } t ∧
        (∀ op q, q.src = Source.ring → readable t op q = false) ∧
        (t.md.powered = true → t.md.rstLow = false → exec .cmdResync t =
          .next { t with ring := { t.ring with cmdHead := t.ring.doorbell, cmdHalt := false } })

/-- What an accepted packet implies, whatever its opcode: the mode is one that serves it (Table 2-10, R95, R97, R98,
R107), its unit is fitted (R8), its flags are of Table 2-4, AT_ORDINAL names a running channel and leaves the lead
(R33), and a synchronised UNDERSTUDY changes no configuration from its own sources (R504). The model's choices:
assumptions 10, 24, 55 and 62. -/
def Obligations.AcceptedPacketsMeetTheRules : Prop :=
  ∀ (c : CmdSpec) (p : Packet) (s : State), accepted c p s = true →
    s.md.mode ∈ c.modes ∧ s.md.mode ≠ .boot ∧ s.md.mode ≠ .dormant ∧ s.ring.rplStall = false ∧
    p.flags.toNat < 4 ∧ p.slots.toNat = slotsOf p.len.toNat ∧ p.len.toNat ≤ 4080 ∧
    (pktAt p = true → c.atOk = true ∧ ∀ k ∈ c.chan (consume s p) p.inst.toNat (ownOf p),
      running s k = true ∧ ordNext s k + schedLead s k ≤ fld (payloadOf p) 0 8 + 1) ∧
    (c.inst = .zero → p.inst = 0) ∧ (∀ k, c.inst = .unit k → fitted s.variant k p.inst.toNat = true) ∧
    (s.md.transit.isSome = true → s.md.romServes = false → c.opcode = 1 ∨ c.opcode = 2 ∨ c.opcode / 256 = 1 ∨
      (c.opcode = 4 ∧ fld (ownOf p) 0 1 = 7)) ∧
    (s.md.mode = .safe → s.md.transit = none → s.md.romServes = false → c.opcode ∈ [1, 2, 4, 0x1150] ∨ c.opcode / 256 ∈ [1, 2, 0x14]) ∧
    (s.pair.role = 2 → s.pair.sync = true → pairGoverns c.opcode (ownOf p) = false)

/-- R52, R53, R60, R85: a reply goes to the slots from RPL_TAIL on, which advances past it; it is held, and reading stops,
while the ring has no room; it is discarded where the ring is disabled; a mailbox's stands in its RPL_BUF; and with
NO_REPLY an OK reply is not posted. -/
def Obligations.RepliesArePosted : Prop :=
  ∀ (opcode st : Nat) (p : Packet) (out : List Byte) (s : State),
    let bytes := replyBytes opcode st p out
    let t := reply s opcode p st out
    let n := ringCount s.ring.rplSize
    (pktNoReply p = true → st = stOK → p.src = .ring → t = s) ∧
    (pktNoReply p = true → st = stOK → ∀ m, srcMbx p.src = some m → t = setMbx s m (fun b => { b with busy := false })) ∧
    ((pktNoReply p && decide (st = stOK)) = false →
      (p.src = .ring → s.ring.rplEn = false → t = told { s with ring := { s.ring with rplDropped := true } } t) ∧
      (p.src = .ring → s.ring.rplEn = true → slotsOf out.length ≤ rplFree s.ring →
        t = told { s with ring := { s.ring with rplTail := (s.ring.rplTail + slotsOf out.length) % n } } t ∧
        (s.host.bme = true → s.ring.rplTail < n → ∀ k, k < slotsOf out.length →
          Output.reply (s.ring.rplBase + 64 * ((s.ring.rplTail + k) % n)) ((bytes.drop (64 * k)).take 64) ∈ t.out)) ∧
      (p.src = .ring → s.ring.rplEn = true → rplFree s.ring < slotsOf out.length →
        t = told { s with ring := { s.ring with rplStall := true, held := some bytes } } t) ∧
      (∀ m, srcMbx p.src = some m → t = setMbx s m (fun b => { b with busy := false, rplReady := true, rplBuf := bytes })))

/-- R54, R73, R86, R97: an event that a destination's mask admits takes the next sequence number there and the next place
of its ring or FIFO, or is counted as lost where there is no room; during BOOT none is posted; nothing else changes.
The model's choices: assumptions 16 and 65. -/
def Obligations.EventsAreDelivered : Prop :=
  ∀ (e : Event) (s : State),
    let t := post s e
    t = told s t ∧ (s.md.mode = .boot → t = s) ∧
    (s.md.mode ≠ .boot →
      (bit (par s 0x0015 0) (e.code / 256) = false → t.ring = s.ring) ∧
      (bit (par s 0x0015 0) (e.code / 256) = true → s.ring.lossPending = false → evtRoom s.ring = true →
        t.ring.seq = (s.ring.seq + 1) % 65536 ∧ t.ring.evtTail = (s.ring.evtTail + 1) % evtCount s.ring ∧ t.ring.evtLost = s.ring.evtLost ∧
        (s.host.bme = true → Output.event (s.ring.evtBase + 32 * s.ring.evtTail) ⟨(s.ring.seq + 1) % 65536, e⟩ ∈ t.out)) ∧
      (bit (par s 0x0015 0) (e.code / 256) = true → evtRoom s.ring = false →
        t.ring.seq = s.ring.seq ∧ t.ring.evtTail = s.ring.evtTail ∧ t.ring.evtLost = satU 32 (s.ring.evtLost + 1) ∧
        t.ring.evtOverflow = true ∧ bit t.host.sticky 0 = true) ∧
      (∀ m, bit (par s 0x0014 (mbxInst m)) (e.code / 256) = true → (mbx s m).lossPending = false →
        ((mbx s m).fifo.length < 256 → (mbx t m).fifo = (mbx s m).fifo ++ [⟨((mbx s m).seq + 1) % 65536, e⟩]) ∧
        (256 ≤ (mbx s m).fifo.length → (mbx t m).fifo = (mbx s m).fifo ∧ (mbx t m).lost = satU 32 ((mbx s m).lost + 1) ∧
          (mbx t m).evtLostFlag = true)))

/-- R50 to R54, Table 2-2: the ring registers, while the device is powered and out of reset. A doorbell, a head or an
enable that the ring cannot take sets its error bit and changes nothing else. R61: a packet of the ring with an
undefined opcode is answered BAD_OPCODE, and CMD_HEAD passes it. R414, R419 to R422, R425, R84, Table 14-5: writes of
registers without a row of their own. STICKY is write-1-to-clear; STICKY_IRQ and IRQ_HOLDOFF take their bits; a ring's
base is written while the ring is disabled, and is a configuration error otherwise; the ring window and CMD_BUF are
memory; unmasking a vector sends the message that its PBA bit holds. The model's choices: assumptions 31 and 42. -/
def Obligations.RegistersAreWritten : Prop :=
  (∀ s : State, s.md.powered = true → s.md.rstLow = false →
      (∀ v : W64, s.md.mode ≠ .dormant → s.ring.cmdEn = true →
        (v.toNat < 4096 → v.toNat < 2 ^ s.ring.cmdSize → exec (.cmdDoorbell v none) s = .next { s with ring := { s.ring with doorbell := v.toNat } }) ∧
        (4096 ≤ v.toNat ∨ 2 ^ s.ring.cmdSize ≤ v.toNat → ∃ t, exec (.cmdDoorbell v none) s = .next t ∧
          t = told { s with ring := { s.ring with doorbellErr := true } } t)) ∧
      (∀ v : W64, s.md.mode ≠ .dormant → s.ring.cmdEn = false → exec (.cmdDoorbell v none) s = .next s) ∧
      (∀ (v : W64) (op : BitVec 16) (p : Packet), s.md.mode ≠ .dormant → s.ring.cmdEn = true → v.toNat < 4096 → v.toNat < 2 ^ s.ring.cmdSize →
        definedOpcodes.contains op.toNat = false → p.src = .ring →
        let u := { s with ring := { s.ring with doorbell := v.toNat } }
        (readable u op.toNat p = false → exec (.cmdDoorbell v (some (op, p))) s = .next u) ∧
        (readable u op.toNat p = true → frameCheck op.toNat p = none → exec (.cmdDoorbell v (some (op, p))) s =
          .next (ringReply { u with ring := { u.ring with turn := 1, cmdHead := (s.ring.cmdHead + p.slots.toNat) % 2 ^ s.ring.cmdSize } }
            (replyBytes op.toNat stBAD_OPCODE p [])))) ∧
      (exec .cmdResync s = .next { s with ring := { s.ring with cmdHead := s.ring.doorbell, cmdHalt := false } }) ∧
      (exec (.cmdEn s.ring.cmdEn) s = .next s ∧ exec (.rplEn s.ring.rplEn) s = .next s ∧ exec (.evtEn s.ring.evtEn) s = .next s) ∧
      (s.ring.cmdEn = true → exec (.cmdEn false) s = .next { s with ring := { s.ring with cmdEn := false } }) ∧
      (s.ring.cmdEn = false → 6 ≤ s.ring.cmdSize → s.ring.cmdSize ≤ 12 → s.ring.cmdBase % 4096 = 0 →
        exec (.cmdEn true) s = .next { s with ring := { s.ring with cmdEn := true, cmdHead := 0, doorbell := 0 } }) ∧
      (s.ring.cmdEn = false → s.ring.cmdSize < 6 ∨ 12 < s.ring.cmdSize ∨ s.ring.cmdBase % 4096 ≠ 0 →
        ∃ t, exec (.cmdEn true) s = .next t ∧ t = told { s with ring := { s.ring with cfgErr := true } } t) ∧
      (s.ring.rplEn = true → s.ring.held = none → exec (.rplEn false) s = .next { s with ring := { s.ring with rplEn := false } }) ∧
      (s.ring.rplEn = true → s.ring.held.isSome = true → s.spi.busy = false → s.smbus.busy = false → ∃ t, exec (.rplEn false) s = .next t ∧
        t = told { s with ring := { s.ring with rplEn := false, held := none, rplStall := false, rplDropped := true } } t) ∧
      (s.ring.rplEn = false → 6 ≤ s.ring.rplSize → s.ring.rplSize ≤ 12 → s.ring.rplBase % 4096 = 0 →
        exec (.rplEn true) s = .next { s with ring := { s.ring with rplEn := true, rplHead := 0, rplTail := 0 } }) ∧
      (s.ring.evtEn = true → exec (.evtEn false) s = .next { s with ring := { s.ring with evtEn := false } }) ∧
      (s.ring.evtEn = false → 6 ≤ s.ring.evtSize → s.ring.evtSize ≤ 16 → s.ring.evtBase % 4096 = 0 →
        exec (.evtEn true) s = .next { s with ring := { s.ring with evtEn := true, evtHead := 0, evtTail := 0 } }) ∧
      (∀ v : W64, v.toNat < 2 ^ s.ring.rplSize → exec (.rplHead v) s = .next { s with ring := { s.ring with rplHead := v.toNat } }) ∧
      (∀ v : W64, v.toNat < 2 ^ s.ring.evtSize → exec (.evtHead v) s = .next { s with ring := { s.ring with evtHead := v.toNat } }) ∧
      (∀ v : W64, 2 ^ s.ring.rplSize ≤ v.toNat → ∃ t, exec (.rplHead v) s = .next t ∧ t = told { s with ring := { s.ring with headErr := true } } t) ∧
      (∀ v : W64, 2 ^ s.ring.evtSize ≤ v.toNat → ∃ t, exec (.evtHead v) s = .next t ∧ t = told { s with ring := { s.ring with headErr := true } } t)) ∧
  (∀ s : State, s.md.powered = true → s.md.rstLow = false →
      (∀ v, v < 2 ^ 64 →
        exec (.registerWrite .window 0x018 (leBytes 8 v)) s =
          .next { s with host := { s.host with sticky := s.host.sticky &&& (2047 ^^^ (v % 2048)) } } ∧
        exec (.registerWrite .window 0x020 (leBytes 8 v)) s = .next { s with host := { s.host with stickyIrq := v % 2048 } } ∧
        exec (.registerWrite .window 0x028 (leBytes 8 v)) s = .next { s with host := { s.host with holdoff := v % 65536 } } ∧
        (s.ring.cmdEn = false → exec (.registerWrite .window 0x040 (leBytes 8 v)) s = .next { s with ring := { s.ring with cmdBase := v } }) ∧
        (s.ring.cmdEn = true → ∃ t, exec (.registerWrite .window 0x040 (leBytes 8 v)) s = .next t ∧
          t = told { s with ring := { s.ring with cfgErr := true } } t) ∧
        (s.ring.rplEn = false → exec (.registerWrite .window 0x060 (leBytes 8 v)) s = .next { s with ring := { s.ring with rplBase := v } }) ∧
        (s.ring.evtEn = false → exec (.registerWrite .window 0x080 (leBytes 8 v)) s = .next { s with ring := { s.ring with evtBase := v } }) ∧
        (s.ring.evtEn = false → v < 32 → exec (.registerWrite .window 0x088 (leBytes 8 v)) s = .next { s with ring := { s.ring with evtSize := v } }) ∧
        (v % 64 = 0 → exec (.registerWrite .window 0x0A0 (leBytes 8 v)) s = .next { s with ring := { s.ring with tailMirror := v } })) ∧
      (∀ (addr : Nat) (bs : List Byte), addr + bs.length ≤ 2 ^ 18 →
        exec (.registerWrite .ringWindow addr bs) s = .next { s with host := { s.host with window := memWrite s.host.window addr bs } }) ∧
      (∀ (addr : Nat) (bs : List Byte), 2 ^ 18 < addr + bs.length → exec (.registerWrite .ringWindow addr bs) s = .next s) ∧
      (∀ (m : Mbx) (addr : Nat) (bs : List Byte), addr + bs.length ≤ 0x1000 →
        exec (.registerWrite (.mailbox m) addr bs) s = .next (setMbx s m (fun b => { b with cmdBuf := memWrite b.cmdBuf addr bs }))) ∧
      (∀ v, v < 64 → s.host.msix.wf = true → v ∈ s.host.masked → v ∈ s.host.pba → s.host.funcMask = false → s.host.bme = true →
        exec (.registerWrite .window (0x800 + 16 * v + 12) (leBytes 4 0)) s = .next { s with
          host := { s.host with msix := memWrite s.host.msix (16 * v + 12) (leBytes 4 0), masked := s.host.masked.filter (fun x => x ≠ v)
                                pba := s.host.pba.filter (fun x => x ≠ v) }
          out := s.out ++ [.msix v] }) ∧
      (∀ v, v < 64 → v ∉ s.host.masked → s.host.msix.wf = true →
        exec (.registerWrite .window (0x800 + 16 * v + 12) (leBytes 4 1)) s = .next { s with
          host := { s.host with msix := memWrite s.host.msix (16 * v + 12) (leBytes 4 1), masked := s.host.masked ++ [v] } }))

/-- R84 to R88: GO hands CMD_BUF to the stage manager, or is rejected while a packet or a reply stands; RPL_ACK frees
RPL_BUF; a read of the last byte of the event window removes its entry; over SMBus, at the strapped address, a word
sets the pointer, and blocks go to and from it; a transfer with a bad PEC is discarded, and another command code is
not acknowledged; SPI writes and reads CMD_BUF at the address that its transaction gives. The model's choices:
assumptions 31 and 65. -/
def Obligations.MailboxAccess : Prop :=
  ∀ (m : Mbx) (s : State) (dev : BitVec 7), s.md.powered = true → s.md.rstLow = false → dev.toNat = 0x58 + s.mgmtAddr % 4 →
    ((mbx s m).busy = false → (mbx s m).rplReady = false → definedOpcodes.contains (leNat (memRead (mbx s m).cmdBuf 0 2)) = true →
      exec (.go m false) s = .next (setMbx s m (fun b => { b with busy := true }))) ∧
    ((mbx s m).busy = false → definedOpcodes.contains (leNat (memRead (mbx s m).cmdBuf 0 2)) = true →
      exec (.go m true) s = .next (setMbx s m (fun b => { b with rplReady := false, rplBuf := [], busy := true }))) ∧
    ((mbx s m).busy = true ∨ (mbx s m).rplReady = true → exec (.go m false) s = .next (setMbx s m (fun b => { b with goRejected := true }))) ∧
    (exec (.rplAck m) s = .next (setMbx s m (fun b => { b with rplReady := false, rplBuf := [] }))) ∧
    (exec (.evtWindowRemove m) s = .next (setMbx s m (fun b => { b with fifo := b.fifo.drop 1 }))) ∧
    (∀ a : BitVec 16, exec (.smbusWriteWord a false dev 1) s = .next { s with smbus := { s.smbus with pointer := a.toNat } }) ∧
    (∀ a : BitVec 16, exec (.smbusWriteWord a true dev 1) s = .next { s with smbus := { s.smbus with pecErr := true } }) ∧
    (∀ (bs : List Byte) (k : Nat), 0 < bs.length → bs.length ≤ 255 →
      exec (.smbusBlockTransfer true bs k true dev 2) s = .next { s with smbus := { s.smbus with pecErr := true } } ∧
      (s.smbus.pointer + bs.length ≤ 0x1000 → exec (.smbusBlockTransfer true bs k false dev 2) s =
        .next { s with smbus := { s.smbus with pointer := s.smbus.pointer + bs.length, cmdBuf := memWrite s.smbus.cmdBuf s.smbus.pointer bs } })) ∧
    (∀ (bs : List Byte) (n : Nat), 0 < n → n ≤ 255 → s.smbus.pointer + n ≤ 0x1000 →
      exec (.smbusBlockTransfer false bs n false dev 2) s =
        .next { s with smbus := { s.smbus with pointer := s.smbus.pointer + n }, out := s.out ++ [.smbus (memRead s.smbus.cmdBuf s.smbus.pointer n)] }) ∧
    (∀ bs : List Byte, s.smbus.pointer = 0x2010 → exec (.smbusBlockTransfer false bs 32 false dev 2) s =
      .next { s with smbus := { s.smbus with pointer := 0x2030, fifo := s.smbus.fifo.drop 1 }
                     out := s.out ++ [.smbus (match s.smbus.fifo with
                       | [] => zeros 32
                       | e :: _ => eventBytes e)] }) ∧
    (∀ (d : BitVec 7) (code : Byte) (a : BitVec 16) (w q : Bool) (bs : List Byte) (n : Nat), d ≠ dev →
      exec (.smbusWriteWord a q d code) s = .next s ∧ exec (.smbusBlockTransfer w bs n q d code) s = .next s) ∧
    (∀ (code : Byte) (a : BitVec 16) (q : Bool), code ≠ 1 → exec (.smbusWriteWord a q dev code) s = .next { s with out := s.out ++ [.smbusNak] }) ∧
    (∀ (code : Byte) (bs : List Byte) (n : Nat) (q : Bool), code ≠ 2 ∨ n = 0 ∨ 255 < n →
      exec (.smbusBlockTransfer false bs n q dev code) s = .next { s with out := s.out ++ [.smbusNak] }) ∧
    (∀ (a : Nat) (bs : List Byte), a + bs.length ≤ 0x1000 →
      exec (.registerWrite .spiWire 0 ([2, BitVec.ofNat 8 (a / 256), BitVec.ofNat 8 a] ++ bs)) s =
        .next { s with spi := { s.spi with cmdBuf := memWrite s.spi.cmdBuf a bs } } ∧
      (0 < bs.length → exec (.registerWrite .spiWire 0 ([3, BitVec.ofNat 8 (a / 256), BitVec.ofNat 8 a, 0] ++ bs)) s =
        .next { s with out := s.out ++ [.spi (memRead s.spi.cmdBuf a bs.length)] }))

/-- R53, R54, R86, R75: a held reply is posted once there is room, and reading resumes; a loss is reported once there is
room; CLEAR_EVENTS clears the latches of its classes, and with class 2 the loss counts. R74: a window's end posts what
it held as one event whose detail counts it, and opens the next; a window that held nothing closes. The model's
choices: assumption 23. -/
def Obligations.HeldRepliesAndEvents : Prop :=
  ((∀ (s : State) (bytes : List Byte), s.ring.held = some bytes → s.ring.rplEn = true → cdiv bytes.length 64 ≤ rplFree s.ring →
      ∃ t, exec .heldReplyPosted s = .next t ∧ t.ring.held = none ∧ t.ring.rplStall = false ∧
        t.ring.rplTail = (s.ring.rplTail + cdiv bytes.length 64) % 2 ^ s.ring.rplSize) ∧
    (∀ s : State, s.md.mode ≠ .boot → s.ring.lossPending = true → evtRoom s.ring = true →
      ∃ t, exec (.eventsLost .ring) s = .next t ∧ t = told s t ∧ t.ring.lossPending = false ∧ t.ring.evtLost = s.ring.evtLost ∧
        t.ring.seq = (s.ring.seq + 1) % 65536 ∧ t.ring.evtTail = (s.ring.evtTail + 1) % evtCount s.ring) ∧
    (∀ s : State, s.md.mode ≠ .boot →
      (s.spi.lossPending = true → s.spi.fifo.length < 256 → exec (.eventsLost .spi) s = .next { s with spi := { s.spi with
        lossPending := false, seq := (s.spi.seq + 1) % 65536
        fifo := s.spi.fifo ++ [⟨(s.spi.seq + 1) % 65536, { code := 0x0200, inst := 1, detail := s.spi.lost }⟩] } }) ∧
      (s.smbus.lossPending = true → s.smbus.fifo.length < 256 → exec (.eventsLost .smbus) s = .next { s with smbus := { s.smbus with
        lossPending := false, seq := (s.smbus.seq + 1) % 65536
        fifo := s.smbus.fifo ++ [⟨(s.smbus.seq + 1) % 65536, { code := 0x0200, inst := 2, detail := s.smbus.lost }⟩] } })) ∧
    (∀ (p : Packet) (s : State), accepted specClearEvents p s = true →
      let m := fld (ownOf p) 0 4
      let u := { consume s p with ev := { s.ev with latches := s.ev.latches.filter (fun l => !bit m (l.1 / 256)) } }
      (bit m 2 = false → exec (.clearEvents p) s = .next (completed 0x0201 p stOK [] u)) ∧
      (bit m 2 = true → exec (.clearEvents p) s = .next (completed 0x0201 p stOK []
        { u with ring := { u.ring with evtLost := 0 }, spi := { u.spi with lost := 0 }, smbus := { u.smbus with lost := 0 } })))) ∧
  (∀ (code inst : BitVec 16) (s : State) (k : Nat × Nat) (w : HeldWindow),
      s.ev.windows.find? (fun w => w.1 = (code.toNat, inst.toNat)) = some (k, w) →
      (∀ e, w.first = some e → exec (.heldEventWindowEnd code inst) s =
        .next (post { s with ev := { s.ev with windows := s.ev.windows.map (fun x => if x.1 = (code.toNat, inst.toNat) then (x.1, {}) else x) } }
          { e with detail := heldDetail code.toNat w })) ∧
      (w.first = none → exec (.heldEventWindowEnd code inst) s =
        .next { s with ev := { s.ev with windows := s.ev.windows.filter (fun w => w.1 ≠ (code.toNat, inst.toNat)) } }))

/-- R93 to R95, R105, R108: SET_MODE to the mode the device is in does nothing; to SAFE, it begins entry to SAFE with
cause 1, and abandons a transition in progress; to another mode, it begins the transition; with AT_ORDINAL it waits
for its cue ordinal. R94, R102, R106: a transition completes once what it waits for has happened: the mode is the
target, TRANSIT clear. R100 to R102, Table 3-6: in WATCH or DORMANT, an enabled wake source notes its bit and begins
the wake to the target of `sys.wake_target`; on the way there it is kept until the entry completes; a disabled one
does nothing. The model's choices: assumptions 34 and 36. -/
def Obligations.ModeTransitions : Prop :=
  (∀ (p : Packet) (s : State) (m : Mode), accepted specSetMode p s = true → modeOf (fld (ownOf p) 0 1) = some m →
      (pktAt p = false → m = s.md.mode → s.md.transit = none → s.md.mode ≠ .safe →
        exec (.setMode p) s = .next (completed 4 p stOK [] (consume s p))) ∧
      (pktAt p = false → m ≠ s.md.mode → m ≠ .safe →
        ∃ t, exec (.setMode p) s = .next t ∧ t.md.mode = s.md.mode ∧ t.md.transit = some { target := m, reason := 0 } ∧
          (s.md.mode = .safe → t.md.level = 0)) ∧
      (pktAt p = false → m = .safe → s.md.mode ≠ .safe ∨ s.md.transit.isSome = true → s.md.transit.map (·.target) ≠ some .safe →
        ∃ t, exec (.setMode p) s = .next t ∧ t.md.mode = s.md.mode ∧ t.md.transit = some { target := .safe, reason := 0 } ∧
          t.md.safeCause = 1 ∧ (∀ c, c < 4 → (chan t c).running = false) ∧ bit t.host.sticky 1 = true ∧ (∀ d, d < 8 → (pdacOf t d).cleared = true)) ∧
      (pktAt p = true → s.md.mode ≠ .safe → exec (.setMode p) s = .next (completed 4 p stOK []
        { consume s p with pend := s.pend ++ [{ chan := cueChan s, ord := fld (payloadOf p) 0 8, tag := p.tag.toNat, opcode := 4, inst := p.inst.toNat, act := .mode m }] }))) ∧
  (∀ (s : State) (tr : Transition), s.md.mode ≠ .boot → s.md.transit = some tr → tr.reason ≠ 1 →
      (modeReady s tr.target = true → s.md.wakePending = false → ∃ t, exec .modeChanged s = .next t ∧
        t.md.mode = tr.target ∧ t.md.transit = none ∧ t.md.waking = false ∧
        t.md.wakeTimerOn = (tr.target = .watch || tr.target = .dormant)) ∧
      (modeReady s tr.target = false → exec .modeChanged s = .next s)) ∧
  (∀ s : State, s.md.mode = .watch ∨ s.md.mode = .dormant →
      (bit (par s 0x0017 0) 0 = true → s.md.transit = none → exec .wakeBall s = .next { s with md := { s.md with
        wakeCause := s.md.wakeCause ||| 1, waking := true, wakePending := false, wakeTimerOn := false
        transit := some { target := (modeOf (par s 0x0018 0)).getD .idle, reason := 1 } } }) ∧
      (bit (par s 0x0017 0) 0 = false → exec .wakeBall s = .next s) ∧
      (bit (par s 0x0017 0) 0 = true → ∀ tr, s.md.transit = some tr → s.md.waking = false → tr.target = .dormant →
        exec .wakeBall s = .next { s with md := { s.md with wakeCause := s.md.wakeCause ||| 1, wakePending := true } }) ∧
      (s.md.wakeTimerOn = true → par s 0x001A 0 ≠ 0 → bit (par s 0x0017 0) 4 = true → s.md.transit = none →
        exec .wakeTimerExpiry s = .next { s with md := { s.md with
          wakeCause := s.md.wakeCause ||| 16, waking := true, wakePending := false, wakeTimerOn := false
          transit := some { target := (modeOf (par s 0x0018 0)).getD .idle, reason := 1 } } }) ∧
      (s.md.wakeTimerOn = false ∨ par s 0x001A 0 = 0 → exec .wakeTimerExpiry s = .next s))

/-- R96, R458, R530, R555: every reset returns to BOOT; parameters and rings return to their reset values, the PDACs to
their clear codes, the outputs are driven low; the coefficient sets in force, fuses, firmware slots, ageing entries
and the term stay. R88, R96, R97, R151, R530, R554: boot begins when RST_N is high and every rail is good; the straps
are sampled and the selected image slot runs where its image verifies, else the other; without either the ROM serves.
R96, R97, R105: boot ends in IDLE once every HBM stack has trained, in SAFE with cause 7 where one failed twice, and
with cause 6 where the ROM serves. The model's choices: assumptions 5, 37, 53 and 65. -/
def Obligations.ResetsAndBoot : Prop :=
  (∀ s : State, s.md.powered = true → s.md.rstLow = false →
      (∃ t, exec .rstNAssert s = .next t ∧ t.md.rstLow = true ∧ t.md.powered = true ∧ t.md.cause = 2 ∧ t.md.booting = false ∧
        t.md.mode = .boot ∧ t.params = [] ∧ t.ring = {} ∧ t.host = {} ∧ anyRunning t = false ∧ t.pend = [] ∧ t.ops = [] ∧
        (∀ d, d < 8 → (pdacOf t d).cleared = true) ∧ Output.outputsLow ∈ t.out ∧ t.sec.debug = none ∧ t.sec.nonce = none ∧
        t.sec.counter = s.sec.counter ∧ t.sec.revoked = s.sec.revoked ∧ t.sec.keys = s.sec.keys ∧
        t.health.ageing = s.health.ageing ∧ t.pair.term = s.pair.term ∧ t.hbm.facets = s.hbm.facets ∧ (∀ c, c < s.chans.length → (chan t c).coef = (chan s c).coef)) ∧
      (∃ t, exec .powerLoss s = .next t ∧ t.md.powered = false ∧ t.md.cause = 1 ∧ t.md.mode = .boot ∧ t.params = [] ∧ t.ring = {} ∧
        t.host = {} ∧ t.pend = [] ∧ t.ops = [] ∧ t.sec.counter = s.sec.counter ∧ Output.outputsLow ∈ t.out) ∧
      (∃ t, exec .watchdogReset s = .next t ∧ t.md.mode = .boot ∧ t.md.booting = true ∧ t.md.resetCause = 3 ∧ t.params = [] ∧
        t.ring = {} ∧ t.host = {} ∧ t.pend = [] ∧ t.ops = [] ∧ Output.outputsLow ∈ t.out ∧
        (s.sec.trial = true → t.sec.trial = false ∧ t.sec.selected = 1 - s.sec.selected))) ∧
  (∀ (f : BootFacts) (s : State), s.md.mode = .boot →
      let slots := [f.slotA, f.slotB]
      let ok := fun (i : Nat) => match nth slots i none with
        | some x => decide (s.sec.counter ≤ x.rollback)
        | none => false
      let began := fun (t : State) =>
        t.md.booting = true ∧ t.md.mode = .boot ∧ t.md.resetCause = s.md.cause ∧ t.mgmtAddr = f.mgmtAddr ∧
        t.clk.xoOk = xoHere f.xoHz ∧ t.clk.refinOk = decide (refinCode (xoHere f.xoHz) f.refinHz ≠ 0) ∧
        (ok s.sec.selected = true → t.md.bootSlot = s.sec.selected ∧ t.sec.firmware = ((nth slots s.sec.selected none).map (·.version)).getD 0 ∧
          t.md.romServes = s.md.romServes) ∧
        (ok s.sec.selected = false → ok (1 - s.sec.selected) = true → t.md.bootSlot = 1 - s.sec.selected ∧
          t.sec.firmware = ((nth slots (1 - s.sec.selected) none).map (·.version)).getD 0 ∧ t.md.romServes = s.md.romServes) ∧
        (ok s.sec.selected = false → ok (1 - s.sec.selected) = false → t.md.romServes = true)
      (s.md.cause = 3 ∧ s.sec.trial = true → False) →
      (s.md.rstLow = true → s.md.powered = true → ∃ t, exec (.rstNRelease f) s = .next t ∧ t.md.rstLow = false ∧ began t) ∧
      (s.md.rstLow = true → s.md.powered = false → exec (.rstNRelease f) s = .next { s with md := { s.md with rstLow := false } }) ∧
      (s.md.powered = false → s.md.rstLow = false → ∃ t, exec (.powerOnMonitorRelease f) s = .next t ∧ t.md.powered = true ∧ began t) ∧
      (s.md.powered = false → s.md.rstLow = true → exec (.powerOnMonitorRelease f) s = .next { s with md := { s.md with powered := true } })) ∧
  (∀ (ts : List StackTraining) (ms : Nat) (m : MountFacts) (g : List Nat) (mon : List (Nat × Nat)) (s : State),
      s.md.mode = .boot → s.md.booting = true → s.md.powered = true → s.md.rstLow = false →
      let res := (fittedList s.variant 0x0B).map (fun k => (nth ts k { result := 0, repaired := 0 }).result)
      (s.md.romServes = false → (∀ r ∈ res, r < 2) → ∃ t, exec (.bootComplete ts ms m g mon) s = .next t ∧
        t.md.mode = .idle ∧ t.md.transit = none ∧ t.md.booting = false ∧ t.md.everIdle = true ∧ t.md.bootTime = Nat.min 255 (ms / 10) ∧
        t.md.hbmFail = false ∧ t.md.hbmRetry = res.any (fun r => decide (1 ≤ r))) ∧
      (s.md.romServes = false → (∃ r ∈ res, 2 ≤ r) → ∃ t, exec (.bootComplete ts ms m g mon) s = .next t ∧
        t.md.mode = .safe ∧ t.md.transit = none ∧ t.md.safeCause = 7 ∧ t.md.hbmFail = true ∧ bit t.host.sticky 1 = true) ∧
      (s.md.romServes = true → ∃ t, exec (.bootComplete ts ms m g mon) s = .next t ∧
        t.md.mode = .safe ∧ t.md.transit = none ∧ t.md.safeCause = 6 ∧ bit t.host.sticky 1 = true))

/-- R105, R109 to R113, R117, Table 3-9: a deviation below a level's threshold takes the device to that level, level 5
into SAFE; recovery of every region goes down one level; an I/O rail warning enters level 5 and SAFE with cause 3, a
thermal trip SAFE with cause 4. The model's choices: assumption 35. -/
def Obligations.ShedLevelsAndTrips : Prop :=
  ∀ s : State, s.md.mode ≠ .boot →
    (∀ (q : Fin 4) (l : Fin 5) (dev : Int), dev < shedEnter (l.val + 1) → s.md.level < l.val + 1 → l.val < 4 →
      ∃ t, exec (.shedLevelEntry q l dev) s = .next t ∧ t.md.level = l.val + 1 ∧ t.md.mode = s.md.mode ∧ t.md.transit = s.md.transit ∧
        t.md.shedCount = lmod s.md.shedCount l.val (fun k => satU 32 (k + 1)) ∧ bit t.host.sticky 2 = true) ∧
    (∀ (q : Fin 4) (l : Fin 5) (dev : Int), shedEnter (l.val + 1) ≤ dev → exec (.shedLevelEntry q l dev) s =
      .next { s with md := { s.md with deviation := lmod s.md.deviation q.val (fun _ => dev) } }) ∧
    (∀ (q : Fin 4) (dev : Int), dev < -90 → s.md.level < 5 → s.md.mode ≠ .safe → s.md.transit = none →
      ∃ t, exec (.shedLevelEntry q 4 dev) s = .next t ∧ t.md.level = 5 ∧ t.md.transit = some { target := .safe, reason := 2 } ∧
        t.md.safeCause = 2) ∧
    (∀ devs : List Int, 0 < s.md.level → s.md.level < 5 → devs.length = 4 → (∀ d ∈ devs, shedRecover s.md.level < d) →
      ∃ t, exec (.shedLevelRecovery devs) s = .next t ∧ t.md.level = s.md.level - 1 ∧ t.md.deviation = devs ∧ t.md.mode = s.md.mode) ∧
    (∀ devs : List Int, devs.length = 4 → s.md.level = 0 ∨ s.md.level = 5 ∨ (∃ d ∈ devs, d ≤ shedRecover s.md.level) →
      exec (.shedLevelRecovery devs) s = .next { s with md := { s.md with deviation := devs } }) ∧
    (∀ region, s.md.level < 5 → s.md.mode ≠ .safe → s.md.transit = none → ∃ t, exec (.ioRailWarning region) s = .next t ∧
      t.md.level = 5 ∧ t.md.transit = some { target := .safe, reason := 2 } ∧ t.md.safeCause = 3) ∧
    (s.md.mode ≠ .safe → s.md.transit = none → ∃ t, exec .thermalTrip s = .next t ∧ t.md.tripped = true ∧
      t.md.transit = some { target := .safe, reason := 2 } ∧ t.md.safeCause = 4 ∧ ∀ c, c < 4 → (chan t c).running = false)

namespace Sys2Proof.Machine

/-- A parameter that a write sets alone: RW, and none of those that share a setting or choose a role (R144, R455). -/
def plainPar (id : Nat) : Bool :=
  decide ((paramRow id).map (fun r => r.acc) = some .rw) && !([0x0401, 0x0F30, 0x0F31, 0x0F32, 0x0F33, 0x0F36, 0x1201].contains id)

end Sys2Proof.Machine

/-- R4, R6, R7, R67 to R71: INVENTORY answers what is fitted; GET_PARAM answers the entries' values; SET_PARAM with
AT_ORDINAL waits for its cue ordinal; of an immediate SET_PARAM, an entry of a parameter that stands alone takes the
last value written to it, and a parameter that no entry of such a command names keeps its value. The model's choices:
assumptions 14, 18, 19, 20, 58 and 67. -/
def Obligations.ParameterCommands : Prop :=
  (∀ (p : Packet) (s : State), accepted specInventory p s = true →
    exec (.inventory p) s = .next (completed 1 p stOK (inventoryBytes s) (consume s p))) ∧
  (∀ (p : Packet) (s : State), accepted specGetParam p s = true →
    let u := holdCount { consume s p with fresh := s.fresh + 1 } (Config.free s.fresh)
    exec (.getParam p) s = .next (completed 2 p stOK
      (leBytes 2 (fld (ownOf p) 0 2) ++ zeros 6 ++ ((getEntries (ownOf p)).map (getRecord u (Config.free s.fresh))).flatten) u) ∧
    (s.clk.holdMs ≤ u.clk.holdMs ∨ 2 ^ 32 ≤ s.clk.holdMs ∨ holdover s = false)) ∧
  (∀ (p : Packet) (s : State), accepted (specSetParam p) p s = true → pktAt p = true →
    ∃ t, exec (.setParam p) s = .next (completed 3 p stOK
      (setHead_ (ownOf p) 0xFFFF ++ ((setEntries (ownOf p)).map (setRecord s (some (fld (payloadOf p) 0 8)))).flatten) t) ∧
      t = told { consume s p with pend := s.pend ++ [{
        chan := changeChan s (setEntries (ownOf p)), ord := fld (payloadOf p) 0 8, tag := p.tag.toNat, opcode := 3
        inst := p.inst.toNat, act := .params (setEntries (ownOf p)) }] } t) ∧
  (∀ (p : Packet) (s : State), accepted (specSetParam p) p s = true → pktAt p = false →
    ∃ t, exec (.setParam p) s = .next (completed 3 p stOK
      (setHead_ (ownOf p) 0xFFFF ++ ((setEntries (ownOf p)).map (setRecord s none)).flatten) t) ∧
      ((∀ e ∈ setEntries (ownOf p), plainPar e.1 = true) →
        ∀ id i, i < 65536 → id < 65536 → par t id i = (written (setEntries (ownOf p)) id i).getD (par s id i)))

/-- R77 to R83: the controls of a known long operation: QUERY_OP answers its record; SUSPEND_OP asks a running one to
suspend, RESUME_OP sets a suspended one running, CANCEL_OP asks a live one to end. R79, R81 to R83, R128, R404: at a
boundary a unit of work is counted, the last one ends the operation; a suspension or a cancellation takes effect
there; a calibration writes every set at its last step. The model's choices: assumptions 22 and 65. -/
def Obligations.LongOperations : Prop :=
  (∀ (p : Packet) (s : State) (o : LongOp), findOp s (fld (ownOf p) 0 4) = some o →
      let state := fun (st : OpState) (s : State) => { s with ops := s.ops.map (fun x => if x.handle = o.handle then { o with state := st } else x) }
      (accepted specQueryOp p s = true → exec (.queryOp p) s = .next (completed 0x0101 p stOK (opRecord o) (consume s p))) ∧
      (accepted specSuspendOp p s = true →
        (o.state = .running → exec (.suspendOp p) s = .next (completed 0x0102 p stOK [] (state .suspending (consume s p)))) ∧
        (o.state ≠ .running → exec (.suspendOp p) s = .next (completed 0x0102 p stOK [] (consume s p)))) ∧
      (accepted specResumeOp p s = true →
        (o.state = .suspended → ∃ t, exec (.resumeOp p) s = .next (completed 0x0103 p stOK [] t) ∧ t = told (state .running (consume s p)) t) ∧
        (o.state ≠ .suspended → exec (.resumeOp p) s = .next (completed 0x0103 p stOK [] (consume s p)))) ∧
      (accepted specCancelOp p s = true → o.state ≠ .cancelling →
        exec (.cancelOp p) s = .next (completed 0x0104 p stOK [] (state .cancelling (consume s p))))) ∧
  (∀ (h : Nat) (s : State) (o : LongOp), findOp s h = some o →
      (o.state = .running → o.opcode = 0x0D40 → o.done + 1 < o.total →
        exec (.opStepBoundary h .done) s = .next { s with ops := s.ops.map (fun x => if x.handle = h then { x with done := x.done + 1 } else x) }) ∧
      (o.state = .running → o.opcode = 0x0D40 → o.total ≤ o.done + 1 → ∃ t, exec (.opStepBoundary h .done) s = .next t ∧
        t.hbm = { s.hbm with facets := s.hbm.newFacets, newFacets := [] } ∧ Output.flashFacets s.hbm.newFacets ∈ t.out ∧
        ∃ x ∈ t.ops, x.handle = h ∧ x.state = .done) ∧
      (o.state = .running → o.opcode = 0x0440 → ∀ sets, o.total ≤ o.done + 1 → (∀ c ∈ o.work.args, ∃ b, sets.filter (fun x => x.1 = c) = [(c, b)]) → ∃ t, exec (.opStepBoundary h (.coefficients sets)) s = .next t ∧
        (∀ c, c < s.chans.length → c ∉ o.work.args → (chan t c).coef = (chan s c).coef) ∧
        (∀ c b, c < s.chans.length → c ∈ o.work.args → sets.filter (fun x => x.1 = c) = [(c, b)] →
          (chan t c).coef = calSet (o.work.bytes.any (fun x => x.getLsbD 0)) (bytesCoef b) (chan s c).coef ∧ (chan t c).calValid = true) ∧
        ∃ x ∈ t.ops, x.handle = h ∧ x.state = .done) ∧
      (o.state = .suspending → o.opcode = 0x0D40 → o.done + 1 < o.total → ∃ t, exec (.opStepBoundary h .done) s = .next t ∧
        (findOp t h).map (fun x => (x.state, x.done)) = some (.suspended, o.done + 1) ∧ t = told { s with ops := t.ops } t) ∧
      (o.state = .cancelling → o.opcode = 0x0D40 → o.done = 0 → ∀ f, ∃ t, exec (.opStepBoundary h f) s = .next t ∧
        t = told { s with ops := t.ops, hbm := { s.hbm with newFacets := [] } } t ∧ ∃ x ∈ t.ops, x.handle = h ∧ x.state = .cancelled) ∧
      (o.state = .suspended ∨ opLive o = false → ∀ f, exec (.opStepBoundary h f) s = .next (if needsPlls s h then pllsFollow s s.md.mode else s)))

/-- R34 to R36: of the changes whose cue ordinal has arrived, the one of the lowest ordinal, and of several the first
accepted, takes effect and waits no longer; of a STOP each channel runs on to its own stop ordinal. The model's
choices: assumptions 14 and 61. -/
def Obligations.CuePointsApply : Prop :=
  ∀ (s : State) (x : PendChange), firstDue s = some x →
    let s' := { s with pend := s.pend.erase x }
    (∀ y ∈ s.pend, changeDue s y = true → x.ord ≤ y.ord) ∧
    (∀ u, x.act = .duSwap u → exec .cuePointApply s = .next (setDu s' u (fun d => { d with swapPend := some x.ord }))) ∧
    (∀ u, x.act = .duClear u → exec .cuePointApply s = .next (setDu s' u (fun d => { d with clearPend := d.clearPend ++ [x.ord] }))) ∧
    (∀ m, x.act = .maskSwap m → exec .cuePointApply s =
      .next { s' with cue := { s.cue with masks := lmod s.cue.masks m (fun k => { k with swapAt := some x.ord }) } }) ∧
    (∀ code, x.act = .cueHost code → exec .cuePointApply s = .next { s' with cue := { s.cue with
      arriving := s.cue.arriving ++ [{ kind := 7, inst := code, ord := x.ord, tests := [2] }] } }) ∧
    (x.act = .stop → ∃ t, exec .cuePointApply s = .next t ∧
      (t.md.stopping = some x.ord ∨ ∀ c, c < 4 → (chan t c).running = false) ∧
      ((∀ c, c < 4 → (chan s c).running = true → domainOf s c = cueChan s) → x.chan = cueChan s →
        (chan s (cueChan s)).buf.dropping = none → (∀ c, c < 4 → (chan t c).running = false) ∧ t.pend = []))

namespace Sys2Proof.Machine

/-- The bundle's only operation stands in the arithmetic slot. -/
def arAlone (w : Nat) : Bool := decide (bFmt w = 0) && decide (lsOp w = 0) && decide (adOp w = 0) && decide (ctOp w = 0)

/-- The bundle's only operation stands in the load/store slot. -/
def lsAlone (w : Nat) : Bool := decide (bFmt w = 0) && decide (arOp w = 0) && decide (adOp w = 0) && decide (ctOp w = 0)

/-- The bundle's only operation stands in the address slot. -/
def adAlone (w : Nat) : Bool := decide (bFmt w = 0) && decide (arOp w = 0) && decide (lsOp w = 0) && decide (ctOp w = 0)

/-- The bundle's only operation stands in the control slot. -/
def ctAlone (w : Nat) : Bool := decide (bFmt w = 0) && decide (arOp w = 0) && decide (lsOp w = 0) && decide (adOp w = 0)

/-- An arithmetic command, its operation code, and what Table 11-7 gives D[a]: the value, and whether it clamps. -/
structure AluRow where
  cmd   : Fin 256 → BitVec 5 → BitVec 5 → BitVec 3 → Instr
  op    : Nat
  value : Engine → Nat → Nat → Nat → Nat × Bool

/-- The arithmetic operations that write a D register, of whose operands x holds the registers. -/
def aluRows : List AluRow :=
  [⟨.accrd, 0x04, fun x _ b c => satTo 32 (rndUp b (nth x.acc (c % 4) 0))⟩,
   ⟨.accrd18, 0x05, fun x _ b c => satTo 18 (rndUp b (nth x.acc (c % 4) 0))⟩,
   ⟨.add, 0x08, fun x a b _ => ((dReg x a + dReg x b) % 2 ^ 32, false)⟩,
   ⟨.adds, 0x09, fun x a b _ => satTo 32 (sgn 32 (dReg x a) + sgn 32 (dReg x b))⟩,
   ⟨.sub, 0x0A, fun x a b _ => (uns 32 (sgn 32 (dReg x a) - sgn 32 (dReg x b)), false)⟩,
   ⟨.subs, 0x0B, fun x a b _ => satTo 32 (sgn 32 (dReg x a) - sgn 32 (dReg x b))⟩,
   ⟨.and, 0x0C, fun x a b _ => (dReg x a &&& dReg x b, false)⟩,
   ⟨.or, 0x0D, fun x a b _ => (dReg x a ||| dReg x b, false)⟩,
   ⟨.xor, 0x0E, fun x a b _ => (dReg x a ^^^ dReg x b, false)⟩,
   ⟨.mov, 0x0F, fun x _ b _ => (dReg x b, false)⟩,
   ⟨.shli, 0x10, fun x a b _ => (dReg x a * 2 ^ b % 2 ^ 32, false)⟩,
   ⟨.shri, 0x11, fun x a b _ => (dReg x a / 2 ^ b, false)⟩,
   ⟨.sari, 0x12, fun x a b _ => (uns 32 (sgn 32 (dReg x a) / (2 ^ b : Nat)), false)⟩,
   ⟨.rndi, 0x13, fun x a b _ => (rndi b (dReg x a), false)⟩] ++
  [⟨.sat18i, 0x14, fun x a b _ => satTo 18 (rndUp b (sgn 32 (dReg x a)))⟩,
   ⟨.min, 0x17, fun x a b _ => (if sgn 32 (dReg x a) ≤ sgn 32 (dReg x b) then dReg x a else dReg x b, false)⟩,
   ⟨.max, 0x18, fun x a b _ => (if sgn 32 (dReg x a) ≤ sgn 32 (dReg x b) then dReg x b else dReg x a, false)⟩,
   ⟨.abs, 0x19, fun x _ b _ => satTo 32 ((sgn 32 (dReg x b)).natAbs : Int)⟩,
   ⟨.neg, 0x1A, fun x _ b _ => satTo 32 (-(sgn 32 (dReg x b)))⟩,
   ⟨.pack16, 0x1B, fun x a b _ => (dReg x b % 65536 * 65536 + dReg x a % 65536, false)⟩,
   ⟨.addi, 0x1C, fun x a b c => (uns 32 (sgn 32 (dReg x a) + sgn 8 (b * 8 + c)), false)⟩,
   ⟨.movi, 0x1D, fun _ _ b c => (uns 32 (sgn 8 (b * 8 + c)), false)⟩]

/-- A chain command, its operation code, and its accumulator terms (R333, Table 11-7): a product of 18-bit operands, a
load, or zeros. -/
structure ChainRow where
  cmd   : Fin 256 → BitVec 5 → BitVec 5 → BitVec 3 → Instr
  op    : Nat
  terms : Engine → Nat → Nat → Nat → List AccTerm

/-- The chain operations. -/
def chainRows : List ChainRow :=
  [⟨.dmac, 0x01, fun x a b c =>
      let g : Int := if c % 2 = 1 then -1 else 1
      let xr := mul18 (dReg x a)
      let xi := mul18 (dReg x (a + 1))
      let y0 := mul18 (dReg x b)
      let y1 := mul18 (dReg x (b + 1))
      [⟨0, bit c 1, g * (xr * y0)⟩, ⟨1, bit c 1, g * (xi * y0)⟩, ⟨2, bit c 1, g * (xr * y1)⟩, ⟨3, bit c 1, g * (xi * y1)⟩]⟩,
   ⟨.qmac, 0x02, fun x a b c =>
      let g : Int := if c % 2 = 1 then -1 else 1
      let xr := mul18 (dReg x a)
      let xi := mul18 (dReg x (a + 1))
      let yr := mul18 (dReg x b)
      let yi := g * mul18 (dReg x (b + 1))
      let k := if bit c 2 then 2 else 0
      [⟨k, bit c 1, xr * yr - xi * yi⟩, ⟨k + 1, bit c 1, xr * yi + xi * yr⟩]⟩,
   ⟨.rmac, 0x03, fun x a b c =>
      let g : Int := if bit c 2 then -1 else 1
      [⟨c % 4, false, g * (mul18 (dReg x a) * mul18 (dReg x b))⟩]⟩,
   ⟨.accld, 0x06, fun x a b c => [⟨c % 4, true, sgn 32 (dReg x a) * (2 ^ b : Nat)⟩]⟩,
   ⟨.accclr, 0x07, fun _ _ b _ => (setBits 4 b).map (fun m => ⟨m, true, 0⟩)⟩]

/-- A load, its operation code, its bytes, and what Table 11-8 writes to the D registers from their value. -/
structure LoadRow where
  cmd   : Fin 256 → BitVec 5 → BitVec 3 → BitVec 3 → BitVec 2 → Instr
  op    : Nat
  size  : Nat
  value : Nat → Nat → List (Nat × Nat) × Bool

/-- The loads. -/
def loadRows : List LoadRow :=
  [⟨.ldw, 0x01, 4, fun d v => ([(d, v)], false)⟩,
   ⟨.ldh, 0x02, 2, fun d v => ([(d, uns 32 (sgn 16 v))], false)⟩,
   ⟨.ldhu, 0x03, 2, fun d v => ([(d, v)], false)⟩,
   ⟨.ldt, 0x04, 3, fun d v => ([(d, uns 32 (sgn 24 v))], false)⟩,
   ⟨.ldp, 0x05, 8, fun d v => ([(d, v % 2 ^ 32), (d + 1, v / 2 ^ 32)], false)⟩,
   ⟨.ldc16, 0x06, 4, fun d v => ([(d, uns 32 (4 * sgn 16 (v % 2 ^ 16))), (d + 1, uns 32 (4 * sgn 16 (v / 2 ^ 16)))], false)⟩,
   ⟨.ldc24, 0x07, 6, fun d v =>
      let i := satTo 18 (rndUp 6 (sgn 24 (v % 2 ^ 24)))
      let q := satTo 18 (rndUp 6 (sgn 24 (v / 2 ^ 24)))
      ([(d, i.1), (d + 1, q.1)], i.2 || q.2)⟩]

/-- A store or a commutative operation, its code, the code of its buffer entry, and what Table 11-8 sends to memory. -/
structure StoreRow where
  cmd   : Fin 256 → BitVec 5 → BitVec 3 → BitVec 3 → BitVec 2 → Instr
  op    : Nat
  entry : Nat
  bytes : Engine → Nat → List Byte × Bool

/-- The stores and the commutative operations. -/
def storeRows : List StoreRow :=
  [⟨.stw, 0x08, 0, fun x d => (leBytes 4 (dReg x d), false)⟩,
   ⟨.sth, 0x09, 0, fun x d => (leBytes 2 (dReg x d), false)⟩,
   ⟨.stt, 0x0A, 0, fun x d => (leBytes 3 (dReg x d), false)⟩,
   ⟨.stp, 0x0B, 0, fun x d => (leBytes 8 (dReg x d + 2 ^ 32 * dReg x (d + 1)), false)⟩,
   ⟨.stc16, 0x0C, 0, fun x d =>
      let i := rndUp 2 (sgn 32 (dReg x d))
      let q := rndUp 2 (sgn 32 (dReg x (d + 1)))
      (leInt 2 (satS 16 i) ++ leInt 2 (satS 16 q), satHit 16 i || satHit 16 q)⟩,
   ⟨.cadds, 0x10, 0x10, fun x d => (leBytes 4 (dReg x d), false)⟩,
   ⟨.cmax, 0x11, 0x11, fun x d => (leBytes 4 (dReg x d), false)⟩,
   ⟨.cmin, 0x12, 0x12, fun x d => (leBytes 4 (dReg x d), false)⟩,
   ⟨.cor, 0x13, 0x13, fun x d => (leBytes 4 (dReg x d), false)⟩]

/-- The effective address of R335: am 3 adds Mm. -/
def slotAddr (x : Engine) (a m am : Nat) : Nat := if am = 3 then addrAdd (aReg x a) (mReg x m) else aReg x a

/-- The post-modification of R335: am 1 adds Mm, am 2 adds it circularly. -/
def posted (x : Engine) (a m am : Nat) : Engine :=
  if am = 1 then putA x a (addrAdd (aReg x a) (mReg x m))
  else if am = 2 then putA x a (addrCirc x a m)
  else x

/-- The branch-group commands with the target that Table 11-9 gives them on the registers at issue, if any. -/
def branchRows : List ((Fin 256 → BitVec 13 → Instr) × Nat × (Engine → Nat → Option BranchKind)) :=
  [(.br, 0x01, fun _ v => some (.to (v % 4096))),
   (.bz, 0x02, fun x v => if x.z then some (.to (v % 4096)) else none),
   (.bnz, 0x03, fun x v => if x.z then none else some (.to (v % 4096))),
   (.bn, 0x04, fun x v => if x.n then some (.to (v % 4096)) else none),
   (.bnn, 0x05, fun x v => if x.n then none else some (.to (v % 4096))),
   (.halt, 0x0B, fun _ _ => some .halt)]

/-- The special registers 0 to 6 of Table 11-3. -/
def specials (x : Engine) : List Nat :=
  [x.lc, stWord x % 2 ^ 32, stWord x / 2 ^ 32, x.epc, b2n x.xen + 2 * b2n x.sen + 256 * x.smask, x.sigp, x.sign]

end Sys2Proof.Machine

/-- Table 11-7: an arithmetic operation that issues alone writes D[a] at once and sets SAT where it clamps; every other
register but PC and the counts, and all the rest of the device, is unchanged. Table 11-7: a chain operation sends its
terms on their way to the accumulators, CMP and CMPU set Z and N, and a NOP only retires. Nothing else changes. -/
def Obligations.EngineArithmetic : Prop :=
  (∀ r ∈ aluRows, ∀ (e : Fin 256) (a b : BitVec 5) (c : BitVec 3) (s : State) (w : Nat),
      issues s e w = true → quiet (eng s e) = true → isAr r.op a.toNat b.toNat c.toNat w = true → arAlone w = true →
      exec (r.cmd e a b c) s = .next (setEng s e (fun x =>
        { retired x with d := lmod x.d a.toNat (fun _ => (r.value x a.toNat b.toNat c.toNat).1 % 2 ^ 32)
                         sat := x.sat || (r.value x a.toNat b.toNat c.toNat).2 }))) ∧
  ((∀ r ∈ chainRows, ∀ (e : Fin 256) (a b : BitVec 5) (c : BitVec 3) (s : State) (w : Nat),
      issues s e w = true → quiet (eng s e) = true → isAr r.op a.toNat b.toNat c.toNat w = true → arAlone w = true →
      exec (r.cmd e a b c) s = .next (setEng s e (fun x =>
        { retired x with chain := if (r.terms x a.toNat b.toNat c.toNat).isEmpty then []
                                  else [{ left := 3, terms := r.terms x a.toNat b.toNat c.toNat }] }))) ∧
    (∀ (e : Fin 256) (a b : BitVec 5) (c : BitVec 3) (s : State) (w : Nat),
      issues s e w = true → quiet (eng s e) = true → arAlone w = true →
      (isAr 0x15 a.toNat b.toNat c.toNat w = true → exec (.cmp e a b c) s = .next (setEng s e (fun x =>
        { retired x with z := decide (dReg x a.toNat = dReg x b.toNat)
                         n := decide (sgn 32 (dReg x a.toNat) < sgn 32 (dReg x b.toNat)) }))) ∧
      (isAr 0x16 a.toNat b.toNat c.toNat w = true → exec (.cmpu e a b c) s = .next (setEng s e (fun x =>
        { retired x with z := decide (dReg x a.toNat = dReg x b.toNat)
                         n := decide (dReg x a.toNat < dReg x b.toNat) }))) ∧
      (arOp w = 0 → exec (.nop e) s = .next (setEng s e retired))))

/-- R340, R341, R343: what a NOP does on an engine with results outstanding. A load result lands after the second of two
further bundles, a chain result after the third; a branch takes effect behind its second delay slot; a REPEAT counts
its body. -/
def Obligations.EngineDelayedResults : Prop :=
  ∀ (e : Fin 256) (s : State) (w : Nat) (x : Engine), issues s e w = true → arAlone w = true → arOp w = 0 → eng s e = x →
    (∀ k r v, x.loads = [⟨k, [(r, v)]⟩] → x.chain = [] → x.branch = none → x.rep = none →
      exec (.nop e) s = .next (setEng s e (fun x =>
        if 1 < k then { retired x with loads := [⟨k - 1, [(r, v)]⟩] }
        else { retired x with loads := [], d := lmod x.d r (fun _ => v % 2 ^ 32) }))) ∧
    (∀ k i v, x.loads = [] → x.chain = [⟨k, [⟨i, false, v⟩]⟩] → x.branch = none → x.rep = none →
      exec (.nop e) s = .next (setEng s e (fun x =>
        if 1 < k then { retired x with chain := [⟨k - 1, [⟨i, false, v⟩]⟩] }
        else { retired x with chain := [], acc := lmod x.acc i (fun _ => satS 48 (nth x.acc i 0 + v))
                              sat := x.sat || satHit 48 (nth x.acc i 0 + v) }))) ∧
    (∀ k t, x.loads = [] → x.chain = [] → x.branch = some (.to t, k) → x.rep = none →
      exec (.nop e) s = .next (setEng s e (fun x =>
        if 1 < k then { retired x with branch := some (.to t, k - 1) } else { retired x with branch := none, pc := t }))) ∧
    (∀ r, x.loads = [] → x.chain = [] → x.branch = none → x.rep = some r →
      exec (.nop e) s = .next (setEng s e (fun x =>
        if r.pos < r.k1 then { retired x with rep := some { r with pos := r.pos + 1 } }
        else if r.rc = 0 then { retired x with rep := none }
        else { retired x with pc := r.start, rep := some { r with rc := r.rc - 1, pos := 0 } })))

/-- Table 11-8, R335, R336, R340: a load from local memory puts its value on the way to D, two delay slots ahead, and
modifies its address register; a load from anywhere else holds issue until its data arrive and changes nothing yet.
Table 11-8, R335, R336, R375: a store or a commutative operation puts one entry at the end of the store buffer and
modifies its address register; memory itself is unchanged. A prefetch of an HBM address takes the line into the
cluster's cache and does nothing elsewhere. -/
def Obligations.EngineLoadsAndStores : Prop :=
  (∀ r ∈ loadRows, ∀ (e : Fin 256) (d : BitVec 5) (a m : BitVec 3) (am : BitVec 2) (s : State) (w : Nat),
      issues s e w = true → quiet (eng s e) = true → isLs r.op d.toNat a.toNat m.toNat am.toNat w = true → lsAlone w = true →
      (regionAt s (slotAddr (eng s e) a.toNat m.toNat am.toNat) = some 0 →
        exec (r.cmd e d a m am) s =
          let v := r.value d.toNat (leNat (engRead s e (slotAddr (eng s e) a.toNat m.toNat am.toNat) r.size))
          .next (setEng s e (fun x => posted { retired x with loads := [⟨2, v.1⟩], sat := x.sat || v.2 } a.toNat m.toNat am.toNat))) ∧
      (regionAt s (slotAddr (eng s e) a.toNat m.toNat am.toNat) ≠ some 0 →
        exec (r.cmd e d a m am) s = .next (setEng s e (fun x => { x with stall := .data })))) ∧
  ((∀ r ∈ storeRows, ∀ (e : Fin 256) (d : BitVec 5) (a m : BitVec 3) (am : BitVec 2) (s : State) (w : Nat),
      issues s e w = true → quiet (eng s e) = true → isLs r.op d.toNat a.toNat m.toNat am.toNat w = true → lsAlone w = true →
      exec (r.cmd e d a m am) s = .next (setEng s e (fun x =>
        posted { retired x with
          buf := x.buf ++ [{ addr := slotAddr x a.toNat m.toNat am.toNat, op := r.entry, bytes := (r.bytes x d.toNat).1 }]
          sat := x.sat || (r.bytes x d.toNat).2 } a.toNat m.toNat am.toNat))) ∧
    (∀ (e : Fin 256) (d : BitVec 5) (a m : BitVec 3) (am : BitVec 2) (s : State) (w : Nat),
      issues s e w = true → quiet (eng s e) = true → isLs 0x0E d.toNat a.toNat m.toNat am.toNat w = true → lsAlone w = true →
      let ea := slotAddr (eng s e) a.toNat m.toNat am.toNat
      let t := setEng s e (fun x => posted (retired x) a.toNat m.toNat am.toNat)
      exec (.pref e d a m am) s =
        .next (if regionAt s ea = some 3 then lineRead t (e.val / 16) ((ea - 0x2000000000) / 64) else t)))

/-- R337, R346, R347: the address slot writes A[a]; a GATHER whose elements all stand in local memory and meet no fault
writes them to D[d] upward, skips those whose GMASK bit is set, and clears GMASK; with an element elsewhere it waits.
The model's choices: assumption 39. -/
def Obligations.EngineAddressAndGather : Prop :=
  (∀ (e : Fin 256) (a m : BitVec 3) (s : State) (w : Nat),
    issues s e w = true → quiet (eng s e) = true → adAlone w = true →
    (isAd 1 a.toNat m.toNat w = true → exec (.adda e a m) s = .next (setEng s e (fun x =>
      putA (retired x) a.toNat (uns 38 ((aReg x a.toNat : Int) + mReg x m.toNat))))) ∧
    (isAd 2 a.toNat m.toNat w = true → exec (.suba e a m) s = .next (setEng s e (fun x =>
      putA (retired x) a.toNat (uns 38 ((aReg x a.toNat : Int) - mReg x m.toNat))))) ∧
    (isAd 3 a.toNat m.toNat w = true → exec (.cira e a m) s = .next (setEng s e (fun x =>
      putA (retired x) a.toNat (addrCirc x a.toNat m.toNat))))) ∧
  (∀ (e : Fin 256) (d : BitVec 5) (a m : BitVec 3) (am : BitVec 2) (s : State) (w : Nat),
    issues s e w = true → quiet (eng s e) = true → isLs 0x0D d.toNat a.toNat m.toNat am.toNat w = true → lsAlone w = true →
    ((∀ i, i < 2 ^ (am.toNat + 1) → bit (eng s e).gmask i = false →
        regionAt s (gatherAddr s e w i) = some 0 ∧ gatherAddr s e w i % 4 = 0 ∧ regionAt s (gatherAddr s e w i + 3) = some 0) →
      exec (.gather e d a m am) s = .next (setEng s e (fun x => { retired x with
        gmask := 0
        d := putRegs x.d ((List.range (2 ^ (am.toNat + 1))).filterMap (fun i =>
          if bit x.gmask i then none else some (d.toNat + i, leNat (engRead s e (gatherAddr s e w i) 4)))) }))) ∧
    ((∃ i, i < 2 ^ (am.toNat + 1) ∧ bit (eng s e).gmask i = false ∧ regionAt s (gatherAddr s e w i) ≠ some 0) →
      exec (.gather e d a m am) s = .next (setEng s e (fun x => { x with stall := .data }))))

/-- Table 11-9, R338, R340, R352, R358: the branch group makes a branch that waits for its two delay slots; BLC counts LC,
JAL leaves its return address in D31, RETS and RETE clear INSIG and INEXC. Nothing else changes. Table 11-9: the other
control operations. SAFEPT passes without a pause request and stops the engine PAUSED with one; SIGWAIT waits; EVT
reaches the cue sheets; WMARK raises the watermark; FENCE holds issue while the store buffer holds an entry. -/
def Obligations.EngineBranchesAndControl : Prop :=
  (∀ (e : Fin 256) (v : BitVec 13) (s : State) (w : Nat),
      issues s e w = true → quiet (eng s e) = true → ctAlone w = true →
      (∀ r ∈ branchRows, isCt r.2.1 v.toNat w = true → exec (r.1 e v) s = .next (setEng s e (fun x =>
        { retired x with branch := (r.2.2 x v.toNat).map (fun k => (k, 2)) }))) ∧
      (isCt 0x06 v.toNat w = true → exec (.blc e v) s = .next (setEng s e (fun x =>
        let lc := (x.lc + 0xFFFFFFFF) % 2 ^ 32
        { retired x with lc := lc, branch := if lc = 0 then none else some (.to (v.toNat % 4096), 2) }))) ∧
      (isCt 0x07 v.toNat w = true → exec (.jal e v) s = .next (setEng s e (fun x =>
        { retired x with d := lmod x.d 31 (fun _ => (x.pc + 3) % 4096), branch := some (.to (v.toNat % 4096), 2) }))) ∧
      (isCt 0x08 v.toNat w = true → exec (.jr e v) s = .next (setEng s e (fun x =>
        { retired x with branch := some (.to (dReg x (v.toNat % 32) % 4096), 2) }))) ∧
      (isCt 0x09 v.toNat w = true → exec (.rets e v) s = .next (setEng s e (fun x =>
        { retired x with insig := false, branch := some (.rets, 2) }))) ∧
      (isCt 0x0A v.toNat w = true → exec (.rete e v) s = .next (setEng s e (fun x =>
        { retired x with inexc := false, branch := some (.rete, 2) })))) ∧
  (∀ (e : Fin 256) (v : BitVec 13) (s : State) (w : Nat),
      issues s e w = true → quiet (eng s e) = true → ctAlone w = true →
      (isCt 0x0C v.toNat w = true → pauseAsked (eng s e) = false → exec (.safept e v) s = .next (setEng s e retired)) ∧
      (isCt 0x0C v.toNat w = true → (eng s e).pauseGate = true ∨ (eng s e).pauseShed = true ∨ (eng s e).pauseRoom = true →
        (eng s e).pauseSubst = false → (eng s e).buf = [] →
        exec (.safept e v) s = .next (setEng s e (fun x => { retired x with st := .paused, saved := x.pauseGate }))) ∧
      (isCt 0x0D v.toNat w = true → exec (.sigwait e v) s = .next (setEng s e (fun x => { retired x with st := .waiting }))) ∧
      (isCt 0x0E v.toNat w = true → ∃ t, exec (.evt e v) s = .next t ∧ eng t e = retired (eng s e) ∧
        (running s (cueChan s) = true → t.cue.arriving = s.cue.arriving ++
          [{ kind := 0x06, inst := v.toNat % 256, tests := [2]
             ord := dReg (eng s e) (v.toNat / 256) + 2 ^ 32 * dReg (eng s e) (v.toNat / 256 + 1) }])) ∧
      (isCt 0x0F v.toNat w = true → exec (.wmark e v) s = .next (setEng s e (fun x =>
        { retired x with watermark := Nat.max x.watermark (dReg x (v.toNat / 256) + 2 ^ 32 * dReg x (v.toNat / 256 + 1)) }))) ∧
      (isCt 0x15 v.toNat w = true → exec (.fence e v) s = .next (setEng s e (fun x =>
        if x.buf = [] then retired x else { retired x with stall := .fence }))))

/-- Table 11-9, R327: moves between the register files and the special registers. CYCL and CYCH read a free value. Table
11-10: the LONG bundles load a register with their immediate, or begin a REPEAT of n iterations of the next k bundles.
The model's choices: assumption 11. -/
def Obligations.EngineMovesAndLong : Prop :=
  (∀ (e : Fin 256) (v : BitVec 13) (s : State) (w : Nat),
      issues s e w = true → quiet (eng s e) = true → ctAlone w = true →
      (∀ n, n < 7 → v.toNat % 16 = n → isCt 0x10 v.toNat w = true → exec (.gets e v) s = .next (setEng s e (fun x =>
        { retired x with d := lmod x.d (v.toNat / 256) (fun _ => nth (specials x) n 0 % 2 ^ 32) }))) ∧
      (v.toNat % 16 = 9 → isCt 0x10 v.toNat w = true → exec (.gets e v) s = .next (setEng s e (fun x =>
        { retired x with d := lmod x.d (v.toNat / 256) (fun _ => (e.val + 256 * (e.val / 16)) % 2 ^ 32) }))) ∧
      (v.toNat % 16 = 10 → isCt 0x10 v.toNat w = true → exec (.gets e v) s = .next (setEng s e (fun x =>
        { retired x with d := lmod x.d (v.toNat / 256) (fun _ => x.prog.hd % 2 ^ 32) }))) ∧
      (v.toNat % 16 = 7 ∨ v.toNat % 16 = 8 → isCt 0x10 v.toNat w = true →
        exec (.gets e v) s = .next (setEng { s with fresh := s.fresh + 1 } e (fun x =>
          { retired x with d := lmod x.d (v.toNat / 256) (fun _ =>
              if v.toNat % 16 = 7 then Config.free s.fresh % 2 ^ 32 else Config.free s.fresh / 2 ^ 32 % 2 ^ 32) }))) ∧
      (∀ n, n < 6 → v.toNat % 16 = n → isCt 0x11 v.toNat w = true → exec (.puts e v) s = .next (setEng s e (fun x =>
        let u := dReg x (v.toNat / 256)
        match n with
        | 0 => { retired x with lc := u }
        | 1 => { retired x with sat := x.sat && !bit u 2, n := bit u 1, z := bit u 0 }
        | 2 => { retired x with gmask := u / 65536 }
        | 3 => { retired x with epc := u % 4096 }
        | 4 => { retired x with xen := bit u 0, sen := bit u 1, smask := bits u 15 8 }
        | _ => { retired x with sigp := x.sigp &&& (255 ^^^ (u % 256)) }))) ∧
      (isCt 0x12 v.toNat w = true → exec (.mova e v) s = .next (setEng s e (fun x =>
        putA (retired x) (v.toNat % 8) (dReg x (v.toNat / 256) + 2 ^ 32 * (dReg x (v.toNat / 256 + 1) % 64))))) ∧
      (isCt 0x13 v.toNat w = true → exec (.movad e v) s = .next (setEng s e (fun x =>
        putD (retired x) [(v.toNat / 256, aReg x (v.toNat % 8) % 2 ^ 32), (v.toNat / 256 + 1, aReg x (v.toNat % 8) / 2 ^ 32)]))) ∧
      (isCt 0x14 v.toNat w = true → exec (.movm e v) s = .next (setEng s e (fun x =>
        { retired x with m := lmod x.m (v.toNat % 8) (fun _ => dReg x (v.toNat / 256)) })))) ∧
  (∀ (e : Fin 256) (r : BitVec 5) (imm : BitVec 48) (s : State) (w : Nat),
      issues s e w = true → quiet (eng s e) = true →
      (isLg 0x01 r.toNat imm.toNat w = true → exec (.repeatN e r imm) s = .next (setEng s e (fun x =>
        { retired x with rep := some { start := (x.pc + 1) % 4096, k1 := imm.toNat % 64, rc := imm.toNat / 2 ^ 16 % 2 ^ 16, pos := 0 } }))) ∧
      (isLg 0x02 r.toNat imm.toNat w = true → exec (.ldiD e r imm) s = .next (setEng s e (fun x =>
        { retired x with d := lmod x.d r.toNat (fun _ => imm.toNat % 2 ^ 32) }))) ∧
      (isLg 0x03 r.toNat imm.toNat w = true → exec (.ldiA e r imm) s = .next (setEng s e (fun x =>
        { retired x with a := lmod x.a r.toNat (fun _ => imm.toNat % 2 ^ 38) }))) ∧
      (isLg 0x04 r.toNat imm.toNat w = true → exec (.ldiM e r imm) s = .next (setEng s e (fun x =>
        { retired x with m := lmod x.m r.toNat (fun _ => imm.toNat % 2 ^ 32) }))) ∧
      (isLg 0x05 r.toNat imm.toNat w = true → exec (.ldiB e r imm) s = .next (setEng s e (fun x =>
        { retired x with b := lmod x.b r.toNat (fun _ => imm.toNat % 2 ^ 38) }))) ∧
      (isLg 0x06 r.toNat imm.toNat w = true → exec (.ldiL e r imm) s = .next (setEng s e (fun x =>
        { retired x with l := lmod x.l r.toNat (fun _ => imm.toNat % 2 ^ 32) }))) ∧
      (isLg 0x07 r.toNat imm.toNat w = true → exec (.ldiLC e r imm) s = .next (setEng s e (fun x =>
        { retired x with lc := imm.toNat % 2 ^ 32 }))))

/-- R350, R351: BRK raises BREAK, after every fault of lower code. With XEN the engine saves PC, REPEAT, branch and
outstanding results, sets INEXC and issues at 0x008; without XEN it stops FAULTED. Either way the fault is counted and
recorded. -/
def Obligations.EngineBreak : Prop :=
  ∀ (e : Fin 256) (v : BitVec 13) (s : State) (w : Nat), canIssue s e = true → bundleAt s e = w →
    isCt 0x16 v.toNat w = true → worst (bundleFaults s e w) = some (8, 3, 255, 0) →
    (eng s e).inexc = false → (eng s e).insig = false →
    ∃ t, exec (.brk e v) s = .next t ∧
      (eng t e).faults = satU 32 ((eng s e).faults + 1) ∧ (eng t e).epc = (eng s e).pc ∧
      (eng t e).fault.cause = 8 ∧ (eng t e).fault.slot = 3 ∧ (eng t e).fault.bundle = (eng s e).pc ∧ (eng t e).fault.word = w ∧
      (eng t e).svRep = (eng s e).rep ∧ (eng t e).svBranch = (eng s e).branch ∧ (eng t e).svLoads = (eng s e).loads ∧
      (eng t e).svChain = (eng s e).chain ∧ (eng t e).loads = [] ∧ (eng t e).chain = [] ∧ (eng t e).rep = none ∧
      (eng t e).branch = none ∧ (eng t e).d = (eng s e).d ∧ (eng t e).a = (eng s e).a ∧ (eng t e).acc = (eng s e).acc ∧
      (if (eng s e).xen then (eng t e).inexc = true ∧ (eng t e).pc = 8 ∧ (eng t e).st = (eng s e).st
       else (eng t e).st = .faulted ∧ (eng t e).pc = (eng s e).pc)

/-- The frame of every bundle row, whatever its bundle holds and whether it faults: beside engines, clusters, the bytes of
HBM, capture units, arriving items and a wake, nothing of the device changes. No byte of memory and no other engine
changes, unless the bundle is a SAFEPT or ends the delay slots of a HALT, which drain the store buffer (R375) and may
substitute the engine (R386). The model's choices: assumption 39. -/
def Obligations.EngineBundlesReach : Prop :=
  ∀ (e : Fin 256) (a b : BitVec 5) (c p q : BitVec 3) (am : BitVec 2) (v : BitVec 13) (imm : BitVec 48) (s : State),
    ∀ i ∈ [Instr.nop e, .cmp e a b c, .cmpu e a b c] ++ aluRows.map (fun r => r.cmd e a b c) ++ chainRows.map (fun r => r.cmd e a b c) ++
      [.gather e a p q am, .pref e a p q am] ++ loadRows.map (fun r => r.cmd e a p q am) ++ storeRows.map (fun r => r.cmd e a p q am) ++
      [.adda e p q, .suba e p q, .cira e p q] ++ branchRows.map (fun r => r.1 e v) ++
      [.blc e v, .jal e v, .jr e v, .rets e v, .rete e v, .safept e v, .sigwait e v, .evt e v, .wmark e v, .gets e v, .puts e v,
       .mova e v, .movad e v, .movm e v, .fence e v, .brk e v] ++
      [.repeatN e a imm, .ldiD e a imm, .ldiA e a imm, .ldiM e a imm, .ldiB e a imm, .ldiL e a imm, .ldiLC e a imm],
    ∃ t, exec i s = .next t ∧ t = engTold s t ∧
      ((bFmt (bundleAt s e) = 0 → ctOp (bundleAt s e) ≠ 0x0C) → (∀ n, (eng s e).branch ≠ some (.halt, n)) →
        sameMemory s t ∧ t.caps = s.caps ∧ ∀ k, k ≠ e.val → eng t k = eng s k)

/-- R336, R364, R370: data of a load from shared memory or HBM arrive; the load's value is on its way to D, issue goes on,
and a line of HBM is in the cluster's cache. R336, R375: the oldest entry of a store buffer reaches memory: local,
shared or HBM; a commutative operation combines it with the word there. The byte addresses written are the entry's; an
empty buffer ends a FENCE, and brings a HALT that waited for it into effect. -/
def Obligations.EngineDataAndDrains : Prop :=
  (∀ r ∈ loadRows, ∀ (e : Fin 256) (d : BitVec 5) (a m : BitVec 3) (am : BitVec 2) (s : State) (w : Nat),
      bundleAt s e = w → quiet (eng s e) = true → (eng s e).stall = .data →
      isLs r.op d.toNat a.toNat m.toNat am.toNat w = true → lsAlone w = true →
      let ea := slotAddr (eng s e) a.toNat m.toNat am.toNat
      let s₁ := if regionAt s ea = some 3 then lineRead s (e.val / 16) ((ea - 0x2000000000) / 64) else s
      regionAt s ea ≠ some 2 → worst (lsFaults s₁ e w) = none →
      let v := r.value d.toNat (leNat (engRead s₁ e ea r.size))
      exec (.loadDataArrival e) s = .next (setEng s₁ e (fun x =>
        posted { retired x with stall := .none, loads := [⟨2, v.1⟩], sat := x.sat || v.2 } a.toNat m.toNat am.toNat))) ∧
  (∀ (e : Fin 256) (s : State) (x : StoreEnt) (rest : List StoreEnt), (eng s e).buf = x :: rest →
      (x.op = 0 → regionAt s x.addr = some 0 → (eng s e).branch ≠ some (.halt, 0) → exec (.storeBufferDrain e) s = .next (setEng s e (fun y =>
        { y with buf := rest, loc := memWrite y.loc x.addr x.bytes
                 stall := if rest.isEmpty && decide (y.stall = .fence) then .none else y.stall }))) ∧
      (x.op = 0 → regionAt s x.addr = some 0 → (eng s e).branch = some (.halt, 0) → (eng s e).stall = .fence → rest = [] →
        ∃ t, exec (.storeBufferDrain e) s = .next t ∧ (eng t e).buf = [] ∧ (eng t e).st = .halted ∧ (eng t e).branch = none ∧
          (eng t e).loc = memWrite (eng s e).loc x.addr x.bytes) ∧
      (x.op = 0 → regionAt s x.addr = some 1 → ∃ t, exec (.storeBufferDrain e) s = .next t ∧ (eng t e).buf = rest ∧
        (cluster t (e.val / 16)).shared = memWrite (cluster s (e.val / 16)).shared (x.addr - 0x1000000) x.bytes) ∧
      (x.op = 0 → regionAt s x.addr = some 3 → ∃ t, exec (.storeBufferDrain e) s = .next t ∧ (eng t e).buf = rest ∧
        t.hbm.mem = memWrite s.hbm.mem (x.addr - 0x2000000000) x.bytes) ∧
      (x.addr % 4 = 0 → regionAt s x.addr = some 0 →
        let old := leNat (memRead (eng s e).loc x.addr 4)
        let v := leNat x.bytes
        ∀ new, (x.op = 0x10 ∧ new = uns 32 (satS 32 (sgn 32 old + sgn 32 v))) ∨ (x.op = 0x11 ∧ new = if sgn 32 old < sgn 32 v then v else old) ∨
          (x.op = 0x12 ∧ new = if sgn 32 v < sgn 32 old then v else old) ∨ (x.op = 0x13 ∧ new = old ||| v) →
        ∃ t, exec (.storeBufferDrain e) s = .next t ∧ (eng t e).buf = rest ∧
          (eng t e).loc = memWrite (eng s e).loc x.addr (leBytes 4 new)))

/-- R364 to R369: the registers of cluster I/O. A load pops a mailbox or a port, a store pushes a mailbox, appends to or
closes the product, or signals engines of the cluster. R355, R384, R386: at an open boundary the lowest enabled
pending line is taken: it is cleared and named in SIGN, EPC takes PC, and issue goes on at 0x010. An engine that a
pause did not reach in time is stopped GATED, or is to be substituted at its next stop. The model's choices:
assumption 39. -/
def Obligations.EngineIoAndSignals : Prop :=
  ((∀ (e : Fin 256) (d : BitVec 5) (a m : BitVec 3) (am : BitVec 2) (s : State) (w b v : Nat) (vs : List Nat),
      bundleAt s e = w → quiet (eng s e) = true → (eng s e).stall = .data →
      isLs 0x05 d.toNat a.toNat m.toNat am.toNat w = true → lsAlone w = true → ioOfLoad s e = some (0, b) →
      nth (cluster s (e.val / 16)).mail b [] = v :: vs →
      let s₁ := setCluster s (e.val / 16) (fun c => { c with mail := lmod c.mail b (fun _ => vs) })
      worst (lsFaults s₁ e w) = none →
      exec (.mbData e) s = .next (setEng s₁ e (fun x =>
        posted { retired x with stall := .none, loads := [⟨2, [(d.toNat, v % 2 ^ 32), (d.toNat + 1, v % 2 ^ 64 / 2 ^ 32)]⟩] }
          a.toNat m.toNat am.toNat))) ∧
    (∀ r ∈ loadRows, ∀ (e : Fin 256) (d : BitVec 5) (a m : BitVec 3) (am : BitVec 2) (s : State) (w p : Nat) (q : PortRec) (qs : List PortRec),
      bundleAt s e = w → quiet (eng s e) = true → (eng s e).stall = .data →
      isLs r.op d.toNat a.toNat m.toNat am.toNat w = true → lsAlone w = true → ioOfLoad s e = some (2, p) →
      (nth (eng s e).ports p {}).recs = q :: qs → r.size ≤ q.bytes.length → worst (lsFaults (popPort s e p r.size).2 e w) = none →
      ∃ t, exec (.ipData e) s = .next t ∧
        (eng t e).loads = [⟨2, (r.value d.toNat (leNat (q.bytes.take r.size))).1⟩] ∧
        (nth (eng t e).ports p {}).recs = if q.bytes.length = r.size then qs else { q with bytes := q.bytes.drop r.size } :: qs) ∧
    (∀ (e : Fin 256) (s : State) (x : StoreEnt) (rest : List StoreEnt), (eng s e).buf = x :: rest → x.op = 0 → (eng s e).stall ≠ .data →
      (∀ b, b < 16 → x.addr = 0x2000000 + 256 * b → (nth (cluster s (e.val / 16)).mail b []).length < 64 →
        b < (cluster s (e.val / 16)).mail.length →
        ∃ t, exec (.mbData e) s = .next t ∧ (eng t e).buf = rest ∧
          nth (cluster t (e.val / 16)).mail b [] = nth (cluster s (e.val / 16)).mail b [] ++ [leNat x.bytes]) ∧
      (x.addr = 0x2001800 → ∃ t, exec (.opData e) s = .next t ∧ (eng t e).buf = rest ∧ (eng t e).body = (eng s e).body ++ x.bytes) ∧
      (x.addr = 0x2001810 → capBlocked s (0x0600 + e.val) = false →
        ∃ t, exec (.opEnd e) s = .next t ∧ (eng t e).buf = rest ∧ (eng t e).body = [] ∧ (eng t e).prodSeq = (eng s e).prodSeq + 1) ∧
      (x.addr = 0x2002000 → ∃ t, exec (.sigsend e) s = .next t ∧ (eng t e).buf = rest ∧
        ∀ i, i < 16 → bit (leNat x.bytes) i = true → (tget? s.engines (16 * (e.val / 16) + i)).isSome = true →
          bit (eng t (16 * (e.val / 16) + i)).sigp 4 = true))) ∧
  ((∀ (e : Fin 256) (s : State) (l : Nat), lineDue (eng s e) = some l → openBoundary (eng s e) = true →
      (eng s e).st = .running ∨ (eng s e).st = .waiting → (eng s e).stall = .none →
      exec (.signalTaken e) s = .next (setEng s e (fun x =>
        { x with st := .running, sigp := x.sigp &&& (255 ^^^ (1 <<< l)), sign := l, epc := x.pc, insig := true, pc := 16 }))) ∧
    (∀ (e : Fin 256) (s : State), (eng s e).st = .running ∨ (eng s e).st = .waiting →
      ((eng s e).pauseGate = true → ∃ t, exec (.safeptDeadline e) s = .next t ∧ (eng t e).st = .gated ∧
        (eng t e).pauseGate = false ∧ (eng t e).saved = false ∧ (eng t e).branch = none ∧ (eng t e).rep = none) ∧
      ((eng s e).pauseGate = false → (eng s e).pauseSubst = true →
        exec (.safeptDeadline e) s = .next (setEng s e (fun x => { x with pauseSubst := false, substNext := true })))))

/-- Tables 12-8 and 11-17: the engine commands, once accepted. AE_FAULT_READ answers the fault record; AE_RESUME restarts
a FAULTED engine where the exception left it; AE_LOAD loads an image that passes R379 into every engine named;
AE_START sets each running at its entry bundle, or schedules that; AE_STOP stops them; AE_SIGNAL raises line 0. The
model's choices: assumptions 65 and 67. -/
def Obligations.EngineCommands : Prop :=
  ∀ (p : Packet) (s : State),
    (accepted specAeFaultRead p s = true →
      exec (.aeFaultRead p) s = .next (completed 0x0C20 p stOK (faultBytes (consume s p) p.inst.toNat) (consume s p))) ∧
    (accepted specAeResume p s = true →
      exec (.aeResume p) s = .next (completed 0x0C21 p stOK [] (setEng (consume s p) p.inst.toNat (fun x =>
        { x with st := .running, inexc := false, pc := x.epc, rep := x.svRep, branch := x.svBranch
                 loads := x.loads ++ x.svLoads, chain := x.chain ++ x.svChain
                 svRep := none, svBranch := none, svLoads := [], svChain := []
                 gmask := if bit (fld (ownOf p) 0 1) 0 then x.gmask ||| (1 <<< x.fault.element) else x.gmask })))) ∧
    (∀ bs, accepted specAeLoad p s = true →
      let b := padTo (fld (ownOf p) 8 4) bs
      programBad (consume s p) b = false → (imgPorts b).any (fun x => portAbsent (consume s p) x.2) = false →
      imageConflicts (consume s p) (engineMap (ownOf p) 16) (imgProgram b) = false →
      ∃ t, exec (.aeLoad p (.bytes bs)) s = .next (completed 0x0C30 p stOK [] t) ∧
        ∀ e ∈ engineMap (ownOf p) 16, (eng t e).st = .stopped ∧ (eng t e).loaded = true ∧ (eng t e).prog = imgProgram b ∧
          (eng t e).loc = memWrite [] 0 ((b.drop (64 + 8 * imgU b)).take (imgV b)) ∧
          ∀ i, i < imgU b → tget? (eng t e).imem i = some (fld b (64 + 8 * i) 8)) ∧
    (accepted specAeStart p s = true → pktAt p = false →
      ∃ t out, exec (.aeStart p) s = .next (completed 0x0C31 p stOK out t) ∧
        ∀ e ∈ engineMap (ownOf p) 0, (eng t e).st = .running ∧ (eng t e).pc = (eng s e).prog.entry ∧
          (eng t e).d = List.replicate 32 0 ∧ (eng t e).acc = [0, 0, 0, 0] ∧ (eng t e).loc = (eng s e).loc) ∧
    (accepted specAeStart p s = true → pktAt p = true →
      ∃ t, exec (.aeStart p) s = .next (completed 0x0C31 p stOK [] t) ∧ t.engines = s.engines ∧
        t.pend = s.pend ++ [{ chan := cueChan s, ord := fld (payloadOf p) 0 8, tag := p.tag.toNat, opcode := 0x0C31
                              inst := p.inst.toNat, act := .aeStart (ownOf p) }]) ∧
    (accepted specAeStop p s = true →
      ∃ t, exec (.aeStop p) s = .next (completed 0x0C32 p stOK [] t) ∧
        ∀ e ∈ engineMap (ownOf p) 0, (eng s e).st ≠ .offline → (eng s e).st ≠ .gated →
          (eng t e).st = .stopped ∧ (eng t e).loads = [] ∧ (eng t e).chain = [] ∧ (eng t e).branch = none ∧ (eng t e).rep = none) ∧
    (accepted specAeSignal p s = true →
      ∃ t, exec (.aeSignal p) s = .next (completed 0x0C33 p stOK [] t) ∧
        ∀ e ∈ engineMap (ownOf p) 0, bit (eng t e).sigp 0 = true)

namespace Sys2Proof.Machine

/-- The state after the bypass register, which captures 0, has been shifted under an instruction. -/
def bypassed (s : State) (i : TapInstr) (drive float : Bool) (shift : List Bool) : State :=
  { s with tap := { s.tap with instr := i, driving := drive, highz := float, bypass := shift.getLast?.getD false }
           out := s.out ++ [.tdo ((false :: shift).take shift.length)] }

/-- The bits of the identification register, least significant first (R550): 1, 0x2C7, the Device ID, the stepping. -/
def idBits (s : State) : List Bool :=
  (List.range 32).map (bit (1 + 2 * 0x2C7 + 2 ^ 12 * deviceId s.variant + 2 ^ 28 * (s.die % 16)))

end Sys2Proof.Machine

/-- R550, R551: an instruction that needs scan selects the bypass register while scan is not enabled, as BYPASS always
does and DBG_ACCESS does while debug is locked; nothing else of the device changes. R550, R551: with scan enabled,
EXTEST and its two 1149.6 forms drive the balls from what was shifted into the boundary register, CLAMP drives them
from what it holds, HIGHZ floats them, and the PDACs stand at their clear values while an instruction drives;
SAMPLE/PRELOAD leaves the balls alone; IDCODE shifts out the identification; with debug unlocked in scope [0],
DBG_ACCESS selects the debug port; Test-Logic-Reset selects IDCODE. The model's choices: assumption 52. -/
def Obligations.TestAccessPort : Prop :=
  (∀ (shift : List Bool) (s : State), s.md.powered = true →
      exec (.bypass shift) s = .next (bypassed s .bypass false false shift) ∧
      (debugOpen s = false → exec (.dbgAccess shift) s = .next (bypassed s .bypass false false shift)) ∧
      (scanEnabled s = false → ∀ c ∈ [Instr.extest shift, .highz shift, .clamp shift, .extestPulse shift, .extestTrain shift],
        exec c s = .next (bypassed s .bypass false false shift))) ∧
  (∀ (shift : List Bool) (s : State), s.md.powered = true →
      (∃ t, exec (.samplePreload shift) s = .next t ∧ t.tap.instr = .samplePreload ∧ t.tap.driving = false ∧ t.tap.highz = false ∧
        t.tap.boundary = shift ∧ t.pdac = s.pdac) ∧
      (shift.length = 32 → ∃ t, exec (.idcode shift) s = .next t ∧ t.tap.instr = .idcode ∧ t.tap.driving = false ∧
        t.out = s.out ++ [.tdo (idBits s)] ∧ t.pdac = s.pdac) ∧
      (exec .testLogicReset s = .next { s with tap := { s.tap with instr := .idcode, driving := false, highz := false } }) ∧
      (∀ scope, s.sec.debug = some scope → bit scope 0 = true →
        ∃ t, exec (.dbgAccess shift) s = .next t ∧ t.tap.instr = .dbgAccess ∧ t.tap.driving = false ∧ t.tap.highz = false ∧ t.pdac = s.pdac) ∧
      (scanEnabled s = true →
        (∀ r ∈ [(Instr.extest shift, TapInstr.extest), (.extestPulse shift, .extestPulse), (.extestTrain shift, .extestTrain)],
          ∃ t, exec r.1 s = .next t ∧ t.tap.instr = r.2 ∧ t.tap.driving = true ∧ t.tap.highz = false ∧ t.tap.boundary = shift ∧
            ∀ d, d < 8 → (pdacOf t d).cleared = true) ∧
        (∃ t, exec (.clamp shift) s = .next t ∧ t.tap.instr = .clamp ∧ t.tap.driving = true ∧ t.tap.highz = false ∧
          t.tap.boundary = s.tap.boundary ∧ ∀ d, d < 8 → (pdacOf t d).cleared = true) ∧
        (∃ t, exec (.highz shift) s = .next t ∧ t.tap.instr = .highz ∧ t.tap.driving = false ∧ t.tap.highz = true ∧
          ∀ d, d < 8 → (pdacOf t d).cleared = true)))

/-- R442, R443, R447: a slot's codes are clamped to 14 bits, averaged to VALUE, and packed with their flags into the
result of the slot's entry; the next slot is due. R451, R452: an enabled comparator moves along the lines of the
table, by the pin's voltage against T_H, T_L and the hysteresis, and reports the edges of the move: RISE_HIGH 0,
FALL_LOW 1, ENTER 2, LEAVE 3. -/
def Obligations.AuxAndComparators : Prop :=
  (∀ (codes : List Int) (ovr : Bool) (chk : List Int) (s : State),
      let e := s.aux.next % auxL s
      let n := codes.length
      let check := decide (par s 0x0F14 e ≠ 0) && decide (s.aux.next / auxL s % par s 0x0F14 e = 0)
      auxOpen s = true → n = par s 0x0F12 e → (check = true → chk.length = 16) → s.aux.buf.ended = [] →
      let x := nth s.aux.entries e {}
      let opened := if check then decide (128 * par s 0x0F06 0 < (chk.foldl (· + ·) 0).natAbs) else x.isOpen
      let value := satS 24 ((2048 * (codes.map (satS 14)).foldl (· + ·) 0 + n) / ((2 * n : Nat) : Int))
      ∃ t, exec (.auxSlotResult codes ovr chk) s = .next t ∧ t.aux.next = s.aux.next + 1 ∧
        t.aux.entries.map (·.result) = lmod (s.aux.entries.map (·.result)) e (fun _ =>
          uns 24 value * 256 + 128 * b2n ovr + 64 * b2n opened + 32 * b2n (decide (x.settled < 4)) + e)) ∧
  (∀ (n : Fin 16) (v : Int) (st : RawStamp) (fast : Bool) (s : State), tiuOn s = true → (comparator s n).enabled = true →
      let hi := parI s 0x0F21 n * 2000
      let lo := parI s 0x0F22 n * 2000
      let h := cmpHyst s n
      ∀ (b : CmpState) (edges : Nat) (count : Nat),
        ((comparator s n).st = .below ∧ lo + h < v ∧ (fast = false ∨ v ≤ hi) ∧ b = .inside ∧ edges = 4 ∧ count = 1) ∨
        ((comparator s n).st = .below ∧ hi < v ∧ fast = true ∧ b = .above ∧ edges = 1 ∧ count = 1) ∨
        ((comparator s n).st = .inside ∧ hi < v ∧ b = .above ∧ edges = 9 ∧ count = 2) ∨
        ((comparator s n).st = .inside ∧ v < lo ∧ v ≤ hi ∧ b = .below ∧ edges = 10 ∧ count = 2) ∨
        ((comparator s n).st = .above ∧ v < hi - h ∧ (fast = false ∨ lo ≤ v) ∧ b = .inside ∧ edges = 4 ∧ count = 1) ∨
        ((comparator s n).st = .above ∧ v < lo ∧ fast = true ∧ b = .below ∧ edges = 2 ∧ count = 1) →
      ∃ t, exec (.cmpCrossing n v st fast) s = .next t ∧
        t.cmps = lmod s.cmps n (fun c => { c with st := b, sticky := c.sticky ||| edges, edges := (c.edges + count) % 2 ^ 64 }))

/-- R456, R458, R459: CLR_N clears every PDAC until it rises; a change that reaches its PDAC moves the commanded value and
the output; one due at an ordinal while CLEARED is set is discarded, which its command tells once; a compliance
reading is latched and judged. The model's choices: assumption 37. -/
def Obligations.PdacChanges : Prop :=
  (∀ s : State, s.pdac.clrLow = false → ∃ t, exec .clrNFall s = .next t ∧ t.pdac.clrLow = true ∧
    (∀ d, d < 8 → (pdacOf t d).cleared = true) ∧
    (∀ d, d < 8 → d < s.pdac.dacs.length → (pdacOf t d).outSpan = par s 0x0F32 d ∧ (pdacOf t d).outCode = par s 0x0F33 d)) ∧
  (∀ s : State, exec .clrNRise s = .next { s with pdac := { s.pdac with clrLow := false } }) ∧
  (∀ (d : Fin 8) (late : Bool) (s : State) (x : PdacDue), s.pdac.due.find? (fun y => decide (y.pdac = d.val)) = some x → tapDrives s = false →
    (x.ord = none → s.pdac.clrLow = false → (pdacOf s d).held = false → x.span.isSome ∨ x.code.isSome →
      ∃ t, exec (.pdacUpdate d late) s = .next t ∧ t.pdac.due = s.pdac.due.erase x ∧
        t.pdac.dacs = lmod s.pdac.dacs d (fun p => { p with
          span := x.span.getD p.span, code := x.code.getD p.code, cleared := false
          outSpan := x.span.getD p.span, outCode := x.code.getD p.code })) ∧
    (x.ord.isSome → late = false → s.pdac.clrLow = false → (pdacOf s d).held = false → (pdacOf s d).cleared = false →
      x.span.isSome ∨ x.code.isSome →
      ∃ t, exec (.pdacUpdate d late) s = .next t ∧ t.pdac.due = s.pdac.due.erase x ∧
        t.pdac.dacs = lmod s.pdac.dacs d (fun p => { p with
          span := x.span.getD p.span, code := x.code.getD p.code, cleared := false
          outSpan := x.span.getD p.span, outCode := x.code.getD p.code })) ∧
    (∀ n, x.ord = some n → (pdacOf s d).held = false → (pdacOf s d).cleared = true → x.span.isSome ∨ x.code.isSome →
      (x.told = true → exec (.pdacUpdate d late) s = .next { s with pdac := { s.pdac with due := s.pdac.due.erase x } }) ∧
      (x.told = false → ∃ t, exec (.pdacUpdate d late) s = .next t ∧ t = told { s with pdac := { s.pdac with
        due := (s.pdac.due.erase x).map (fun y => if y.ord = some n ∧ y.tag = x.tag then { y with told := true } else y) } } t))) ∧
  (∀ (d : Fin 8) (reading : Int) (s : State), s.md.mode ≠ .boot → s.md.mode ≠ .dormant →
    ∃ t, exec (.pdacCompliance d reading) s = .next t ∧
      t.pdac.dacs = lmod s.pdac.dacs d (fun p => { p with
        measured := satS 32 reading, compliance := pdacOff (pdacWants s d) reading
        complianceSeen := p.complianceSeen || pdacOff (pdacWants s d) reading }))

/-- R462 to R464, R468: a selected edge takes the next stamp number of its input and its local time; one within 2.0 ns of
the one before is only counted dead; one that `tiu.edge` does not select does nothing. An EV input wakes the device by
`tiu.wake` even where its stamps are disabled (R100). TIU_ANCHOR_READ answers the latest anchor. The model's choices:
assumption 17. -/
def Obligations.EdgesAreStamped : Prop :=
  (∀ (i : Fin 32) (rising : Bool) (st : RawStamp) (since : Nat) (s : State), tiuOn s = true → edgeSource s i = true →
    (edgeSelected s i rising = true → 2000 ≤ since → ∃ t, exec (.evEdge i rising st since) s = .next t ∧
      t.tiu.inputs.map (·.issued) = lmod (s.tiu.inputs.map (·.issued)) i (· + 1) ∧ t.tiu.lastT = stampT st) ∧
    (edgeSelected s i rising = true → since < 2000 → (i.val < 16 → par s 0x1006 i ≠ 1) → exec (.evEdge i rising st since) s =
      .next { s with tiu := { s.tiu with inputs := lmod s.tiu.inputs i (fun q => { q with dead := satU 32 (q.dead + 1), deadSeen := true }) } }) ∧
    (edgeSelected s i rising = false → polarity s i rising = false ∨ (i.val < 16 → par s 0x1006 i ≠ 1) →
      exec (.evEdge i rising st since) s = .next s) ∧
    (par s 0x1001 i ≠ 1 → polarity s i rising = true → i.val < 16 → par s 0x1006 i = 1 →
      exec (.evEdge i rising st since) s = .next (fireWake s 2 none))) ∧
  (∀ (p : Packet) (s : State), accepted specTiuAnchorRead p s = true →
    exec (.tiuAnchorRead p) s = .next (completed 0x1050 p stOK (anchorBytes (consume s p)) (consume s p)))

namespace Sys2Proof.Machine

/-- A PLL that has lost lock; it coasts where no reference is left (R152, R154). -/
def unlocked (coast : Bool) (x : Pll) : Pll :=
  if x.powered then { x with lock := false, coast, good := 0, bad := 0, unlockSeen := x.unlockSeen || x.lock }
  else if coast then x else { x with coast := false }

/-- A PLL's settings for the VCO frequency that its configuration asks for, on a reference of so many Hz (R146, R149). -/
def tuned (s : State) (p ref : Nat) (x : Pll) : Pll :=
  { x with n := (pllRatio (vcoWanted s p) ref).1, f := (pllRatio (vcoWanted s p) ref).2 }

/-- R156: `clk.holdover_time` reads zero outside holdover, and a change within holdover leaves it. -/
def holdKept (s t : State) : Prop :=
  (holdover t = false → t.clk.holdMs = 0) ∧ (holdover s = true → holdover t = true → t.clk.holdMs = s.clk.holdMs)

end Sys2Proof.Machine

/-- R149 to R152, R154: loss of the reference in use unlocks every powered PLL; the PLLs move to the other reference, with
settings for it, where AUTO finds it present, and coast otherwise. Loss of one that is not in use changes no PLL, and
an edge count within the tolerance is no loss. R149 to R152: a reference that qualifies, by the frequency test, is
used where the selection asks for it, and PLLs that coasted resume, with settings for it; XO in use is kept under AUTO
while a channel runs. Three good windows in a row declare lock, two bad ones its loss. -/
def Obligations.ReferencesAndLock : Prop :=
  (∀ s : State,
      (s.md.mode ≠ .dormant → s.clk.refinOk = true → s.clk.source = 1 →
        (par s 0x0501 0 = 0 → s.clk.xoOk = true → ∃ t, exec (.refinLost none) s = .next t ∧ t = told { s with clk := t.clk } t ∧
          t.clk.source = 2 ∧ t.clk.refinOk = false ∧ t.clk.refLostSeen = true ∧ holdKept s t ∧
          ∀ p, p < 4 → p < s.clk.plls.length → nth t.clk.plls p {} = tuned s p 100000000 (unlocked false (nth s.clk.plls p {}))) ∧
        (par s 0x0501 0 = 1 ∨ (par s 0x0501 0 = 0 ∧ s.clk.xoOk = false) → ∃ t, exec (.refinLost none) s = .next t ∧ t = told { s with clk := t.clk } t ∧
          t.clk.source = 0 ∧ t.clk.refinOk = false ∧ t.clk.refLostSeen = true ∧ holdKept s t ∧
          ∀ p, p < 4 → p < s.clk.plls.length → nth t.clk.plls p {} = unlocked true (nth s.clk.plls p {}))) ∧
      (s.md.mode ≠ .dormant → s.clk.refinOk = true → s.clk.source ≠ 1 → ∃ t, exec (.refinLost none) s = .next t ∧ holdKept s t ∧
        t = { s with clk := { s.clk with refinOk := false, refinFreq := 0, refinHz := 0, refLostSeen := true, holdMs := t.clk.holdMs } }) ∧
      (∀ hz, withinPpm hz s.clk.refinHz (refinPpm s.clk.xoOk) = true → exec (.refinLost (some hz)) s = .next s) ∧
      (∀ hz, xoHere hz = false → s.clk.xoOk = true → s.clk.source = 2 →
        (par s 0x0501 0 = 0 → s.clk.refinOk = true → 1 ≤ s.clk.refinFreq → s.clk.refinFreq ≤ 3 →
          ∃ t, exec (.xoLost hz) s = .next t ∧ t = told { s with clk := t.clk } t ∧
          t.clk.source = 1 ∧ t.clk.xoOk = false ∧ holdKept s t ∧ ∀ p, p < 4 → p < s.clk.plls.length →
            nth t.clk.plls p {} = tuned s p (nth [0, 10000000, 25000000, 100000000] s.clk.refinFreq 0) (unlocked false (nth s.clk.plls p {}))) ∧
        (par s 0x0501 0 = 2 ∨ (par s 0x0501 0 = 0 ∧ s.clk.refinOk = false) → ∃ t, exec (.xoLost hz) s = .next t ∧ t = told { s with clk := t.clk } t ∧
          t.clk.source = 0 ∧ t.clk.xoOk = false ∧ holdKept s t ∧
          ∀ p, p < 4 → p < s.clk.plls.length → nth t.clk.plls p {} = unlocked true (nth s.clk.plls p {}))) ∧
      (∀ hz, xoHere hz = false → s.clk.xoOk = true → s.clk.source ≠ 2 → ∃ t, exec (.xoLost hz) s = .next t ∧ holdKept s t ∧
        t = { s with clk := { s.clk with xoOk := false, holdMs := t.clk.holdMs } }) ∧
      (∀ hz, s.clk.xoOk = false ∨ xoHere hz = true → exec (.xoLost hz) s = .next s)) ∧
  ((∀ (hz : Nat) (s : State), s.md.mode ≠ .dormant → s.clk.refinOk = false →
      let k := refinCode s.clk.xoOk hz
      let f := nth [0, 10000000, 25000000, 100000000] k 0
      (k = 0 → exec (.refinQualified hz) s = .next s) ∧
      (k ≠ 0 → s.clk.source = 0 → par s 0x0501 0 ≤ 1 → ∃ t, exec (.refinQualified hz) s = .next t ∧ t = told { s with clk := t.clk } t ∧ holdKept s t ∧
        t.clk = { s.clk with refinOk := true, refinFreq := k, refinHz := hz, source := 1, holdMs := t.clk.holdMs,
                             plls := s.clk.plls.zipIdx.map (fun x => tuned s x.2 f { x.1 with coast := false }) }) ∧
      (k ≠ 0 → s.clk.source = 2 → s.clk.xoOk = true → par s 0x0501 0 = 0 → anyRunning s = true →
        exec (.refinQualified hz) s = .next { s with clk := { s.clk with refinOk := true, refinFreq := k, refinHz := hz } }) ∧
      (k ≠ 0 → s.clk.source = 2 → par s 0x0501 0 = 0 → anyRunning s = false → ∃ t, exec (.refinQualified hz) s = .next t ∧
        t = told { s with clk := t.clk } t ∧ holdKept s t ∧
        t.clk = { s.clk with refinOk := true, refinFreq := k, refinHz := hz, source := 1, holdMs := t.clk.holdMs,
                             plls := s.clk.plls.zipIdx.map (fun x => tuned s x.2 f x.1) })) ∧
    (∀ (hz : Nat) (s : State), xoHere hz = true → s.clk.xoOk = false →
      (s.clk.source = 0 → par s 0x0501 0 = 2 ∨ (par s 0x0501 0 = 0 ∧ s.clk.refinOk = false) → ∃ t, exec (.xoPresent hz) s = .next t ∧
        t = told { s with clk := t.clk } t ∧ holdKept s t ∧ t.clk = { s.clk with xoOk := true, source := 2, holdMs := t.clk.holdMs, plls := s.clk.plls.zipIdx.map (fun x => tuned s x.2 100000000 { x.1 with coast := false }) }) ∧
      (s.clk.source = 1 → par s 0x0501 0 ≤ 1 → s.clk.refinOk = true → ∃ t, exec (.xoPresent hz) s = .next t ∧ holdKept s t ∧
        t = { s with clk := { s.clk with xoOk := true, holdMs := t.clk.holdMs } })) ∧
    (∀ (p : Fin 4) (diff : Int) (s : State), (nth s.clk.plls p {}).powered = true → s.clk.source ≠ 0 →
      let x := nth s.clk.plls p {}
      (diff.natAbs ≤ 2 → x.lock = false → x.good = 2 → ∃ t, exec (.clkLock p diff) s = .next t ∧ t = told { s with clk := t.clk } t ∧ holdKept s t ∧
        t.clk = { s.clk with holdMs := t.clk.holdMs, plls := lmod s.clk.plls p (fun x =>
          { x with diff := satS 16 diff, good := 3, bad := 0, lock := true, started := true, coast := false }) }) ∧
      (diff.natAbs ≤ 2 → x.lock = false → x.good < 2 → ∃ t, exec (.clkLock p diff) s = .next t ∧ holdKept s t ∧
        t = { s with clk := { s.clk with
          holdMs := t.clk.holdMs, plls := lmod s.clk.plls p (fun y => { y with diff := satS 16 diff, good := x.good + 1, bad := 0 }) } }) ∧
      (2 < diff.natAbs → x.lock = true → x.bad = 0 → ∃ t, exec (.clkLock p diff) s = .next t ∧ holdKept s t ∧
        t = { s with clk := { s.clk with
          holdMs := t.clk.holdMs, plls := lmod s.clk.plls p (fun y => { y with diff := satS 16 diff, good := 0, bad := 1 }) } }) ∧
      (2 < diff.natAbs → x.lock = true → 1 ≤ x.bad → ∃ t, exec (.clkLock p diff) s = .next t ∧ t = told { s with clk := t.clk } t ∧ holdKept s t ∧
        t.clk = { s.clk with
          holdMs := t.clk.holdMs, plls := lmod s.clk.plls p (fun y => { y with diff := satS 16 diff, good := 0, bad := 0, lock := false, coast := true, unlockSeen := true }) })))

/-- R161, R162, R468: a good edge, 1 s ± 1 µs after the one before, takes the seconds of a CLK_SET_TIME accepted at least
10 ms earlier, else the next second, or the elapsed seconds after a loss; the second good edge qualifies PPS_IN; an
edge outside the window is rejected. CLK_SET_TIME waits for the next good edge. R164 to R167, R247, R19: the next
pulse of an open gate rises at the first e_k not past and falls a width later; the last of `pg.count` closes the gate.
A trigger output's oldest scheduled pulse is emitted at its rise. Either is withheld where it is late, and never
emitted while an instruction or the pair holds the outputs. The model's choices: assumptions 17, 29 and 65. -/
def Obligations.TimeAndPulses : Prop :=
  ((∀ (ns : Nat) (st : RawStamp) (el since : Nat) (s : State), s.md.mode ≠ .boot → s.md.mode ≠ .dormant →
      let given := if 10000000 ≤ since then s.clk.setTime else none
      (999999000 ≤ ns → ns ≤ 1000001000 → s.pair.aligning = none →
        ∃ t, exec (.ppsEdge ns st el since) s = .next t ∧ t = told { s with clk := t.clk, tiu := t.tiu } t ∧ holdKept s t ∧
          t.clk = { s.clk with
            seconds := match given with
              | some v => v
              | none => if s.clk.firstEdge then 0 else (s.clk.seconds + (if s.clk.ppsGone then el else 1)) % 2 ^ 48
            setTime := if given.isSome then none else s.clk.setTime
            firstEdge := false, ppsGone := false, ppsGood := Nat.min 2 (s.clk.ppsGood + 1)
            ppsQual := s.clk.ppsQual || decide (1 ≤ s.clk.ppsGood), holdMs := t.clk.holdMs } ∧
          t.tiu.ppsT = some (stampT st) ∧ t.tiu.ppsTime = t.clk.seconds * 2 ^ 32 ∧
          (running s (cueChan s) = true → t.clk.ppsQual = true → t.tiu.anchor.map (·.time) = some (t.clk.seconds * 2 ^ 32) ∧
            t.tiu.anchor.any (fun a => decide (a.offset < 2 ^ 31) && decide (-(2 ^ 31) ≤ a.offset)) = true ∧ t.tiu.anchorB = s.tiu.anchor)) ∧
      (ns < 999999000 ∨ 1000001000 < ns → ∃ t, exec (.ppsEdge ns st el since) s = .next t ∧ holdKept s t ∧
        t = { s with clk := { s.clk with ppsGood := 0, ppsRejects := satU 32 (s.clk.ppsRejects + 1), holdMs := t.clk.holdMs } })) ∧
    (∀ s : State, s.md.mode ≠ .boot → s.md.mode ≠ .dormant → s.clk.firstEdge = false →
      ∃ t, exec .ppsLost s = .next t ∧ t = told { s with clk := t.clk } t ∧
        t.clk = { s.clk with ppsQual := false, ppsGood := 0, ppsGone := true, ppsLostSeen := s.clk.ppsLostSeen || s.clk.ppsQual }) ∧
    (∀ (p : Packet) (s : State), accepted specClkSetTime p s = true →
      exec (.clkSetTime p) s = .next (completed 0x0510 p stOK []
        { consume s p with clk := { s.clk with setTime := some (fld (ownOf p) 0 6), holdMs := if holdover s then s.clk.holdMs else 0 } }))) ∧
  ((∀ (g : Fin 2) (late : Bool) (s : State), gateOpen s g = true →
      let e := pulseFrom s g (gate s g).nextFrom
      let fall := e + par s 0x0523 g
      dueNow s e = true → pendBelow s (cueChan s) e = false →
      (late = false → gateLast s g = false →
        ∃ t, exec (.pgPulse g late) s = .next t ∧
          t.gates = lmod s.gates g (fun x => { x with nextFrom := e + 1, counted := x.counted + 1, emitted := satU 62 (x.emitted + 1),
                                                      high := some fall, done := false }) ∧
          (edgeHeld s e = false → Output.pulse g e fall (par s 0x0525 g) ∈ t.out)) ∧
      (late = false → gateLast s g = true →
        ∃ t, exec (.pgPulse g late) s = .next t ∧
          t.gates = lmod s.gates g (fun x => { x with nextFrom := e + 1, counted := x.counted + 1, emitted := satU 62 (x.emitted + 1),
                                                      high := some fall, done := true })) ∧
      (late = true → ∃ t, exec (.pgPulse g late) s = .next t ∧ t = told { s with gates := t.gates } t ∧
        t.gates = lmod s.gates g (fun x => { x with nextFrom := e + 1, counted := x.counted + 1, done := gateLast s g }))) ∧
    (∀ (o : Fin 4) (late : Bool) (s : State) (rise fall : Nat) (rest : List (Nat × Nat)),
      (nth s.cue.trg o {}).queue = (rise, fall) :: rest → (running s (cueChan s) = true → rise ≤ ordNext s (cueChan s)) →
      (late = false → (∀ f, (nth s.cue.trg o {}).high = some f → f ≤ rise) → edgeHeld s rise = false →
        exec (.trgOutPulse o late) s = .next (emit { s with cue := { s.cue with trg := lmod s.cue.trg o (fun t =>
          { t with queue := rest, high := some fall, count := t.count + 1 }) } } (.trg o rise fall))) ∧
      (late = true → ∃ t, exec (.trgOutPulse o late) s = .next t ∧
        t = told { s with cue := { s.cue with trg := lmod s.cue.trg o (fun t => { t with queue := rest }) } } t)))

namespace Sys2Proof.Machine

/-- Channel c with its DMA channel changed: what most DMA commands do. -/
def dmaIs (s t : State) (c : Nat) (x : DmaChannel) : Prop :=
  t = told { s with host := { s.host with chans := lmod s.host.chans c (fun _ => x) } } t

end Sys2Proof.Machine

/-- R425 to R427: a running channel without a descriptor fetches the next one of its chain (a waiting one polls it again):
from the ring window, or by a read of host memory while Bus Master Enable is 1. One whose DONE flag is set makes the
channel wait; one that fails its checks halts it; another is taken. The model's choices: assumption 56. -/
def Obligations.DescriptorsAreFetched : Prop :=
  ∀ (poll : Bool) (c : Fin 32) (fetched : List Byte) (s : State) (a : Nat),
    let cmd : Fetched → Instr := fun f => if poll then .descriptorRepoll c f else .descriptorFetch c f
    let x := dmaCh s c
    x.st = .running → x.desc = none → x.next = some a → x.waiting = poll →
    (2 ^ 63 + 0x3FFE0 < a → ∀ f, ∃ t, exec (cmd f) s = .next t ∧ (dmaCh t c).st = .halted ∧ (dmaCh t c).error = stBAD_PARAM) ∧
    (a < 2 ^ 63 → s.host.bme = false → ∀ f, exec (cmd f) s = .next s) ∧
    (a < 2 ^ 63 → s.host.bme = true → ∀ st, ∃ t, exec (cmd (.halted st)) s = .next t ∧ (dmaCh t c).st = .halted ∧ (dmaCh t c).error = stHW_FAULT) ∧
    ∀ bs, (2 ^ 63 ≤ a ∧ a ≤ 2 ^ 63 + 0x3FFE0 ∧ bs = memRead s.host.window (a - 2 ^ 63) 32) ∨
        (a < 2 ^ 63 ∧ s.host.bme = true ∧ bs = padTo 32 fetched) →
      (bit (fld bs 30 1) 0 = true → exec (cmd (.bytes fetched)) s = .next (setDma s c (fun d => { d with waiting := true }))) ∧
      (bit (fld bs 30 1) 0 = false → descriptorFault bs = none →
        exec (cmd (.bytes fetched)) s = .next (setDma s c (fun d => { d with
          waiting := false
          desc := some { addr := a, buf := fld bs 0 8, len := fld bs 8 4, irq := bit (fld bs 12 2) 0, last := bit (fld bs 12 2) 1
                         next := fld bs 16 8 } }))) ∧
      (bit (fld bs 30 1) 0 = false → ∀ st, descriptorFault bs = some st →
        ∃ t, exec (cmd (.bytes fetched)) s = .next t ∧
          dmaIs s t c { x with st := .halted, error := st, waiting := false, desc := none, direct := none, flushDue := false
                               user := if x.direct.isSome then 0 else x.user })

/-- R426, R429 to R432, R436: a descriptor completes once its buffer is full, or short where the flush time has passed,
its user was released or the channel is stopping: its bytes go to its buffer in whole lines, and its last eight bytes
tell the count and DONE; the last of a chain ends it. A direct transfer counts as one descriptor. A kick makes a
waiting channel fetch at once. The model's choices: assumptions 25 and 56. -/
def Obligations.DescriptorsComplete : Prop :=
  (∀ (c : Fin 32) (s : State) (d : Descriptor), (dmaCh s c).desc = some d → (dmaCh s c).direct = none → s.host.bme = true →
    (dmaCh s c).st = .running →
    let x := dmaCh s c
    let k := takeItems d.len x.data
    (d.len ≤ (waitingBytes x.data).1 ∨ (waitingBytes x.data).2 = true ∨ x.flushDue = true →
      ∃ t, exec (.descriptorComplete c) s = .next t ∧
        dmaCh t c = { x with
          completed := (x.completed + 1) % 2 ^ 32, desc := none, data := k.rest, flushDue := false, bytes := satU 64 (x.bytes + k.bytes.length)
          next := if d.last then none else some d.next, user := if k.cut && (x.user = 2 || x.user = 3) then 0 else x.user
          st := if d.last then .ended else .running } ∧
        (k.bytes ≠ [] → Output.dma d.buf (padTo (64 * cdiv k.bytes.length 64) k.bytes) ∈ t.out) ∧
        (d.addr < 2 ^ 63 → Output.dmaDone (d.addr + 24) (leBytes 4 k.bytes.length ++ leBytes 2 0 ++
          leBytes 1 (1 + 2 * b2n (decide (k.bytes.length < d.len)) + 4 * b2n (k.ends && !k.bytes.isEmpty)) ++
          leBytes 1 ((x.completed + 1) % 2 ^ 32)) ∈ t.out)) ∧
    ((waitingBytes x.data).1 < d.len → (waitingBytes x.data).2 = false → x.flushDue = false → exec (.descriptorComplete c) s = .next s) ∧
    (0 < (waitingBytes x.data).1 → exec (.dmaFlushTimeout c) s = .next (setDma s c (fun d => { d with flushDue := true })))) ∧
  (∀ (c : Fin 32) (s : State) (d : Direct), (dmaCh s c).direct = some d → d.toHost = false → s.host.bme = true → (dmaCh s c).st = .running →
    ∃ t, exec (.descriptorComplete c) s = .next t ∧
      dmaIs s t c { dmaCh s c with completed := ((dmaCh s c).completed + 1) % 2 ^ 32, direct := none, user := 0
                                   bytes := satU 64 ((dmaCh s c).bytes + d.len), st := d.before }) ∧
  (∀ (c : Fin 32) (mask : BitVec 32) (s : State) (a : Nat), setBits 32 mask.toNat = [c.val] → fetchOpen s c = true → (dmaCh s c).waiting = true →
    (dmaCh s c).next = some a → a < 2 ^ 63 → exec (.dmaKick mask) s = .next (setDma s c (fun d => { d with waiting := false }))) ∧
  (∀ (mask : BitVec 32) (s : State), (∀ c, bit mask.toNat c = true → fetchOpen s c = false ∨ (dmaCh s c).waiting = false) →
    exec (.dmaKick mask) s = .next s) ∧
  (∀ (c : Fin 32) (s : State), s.host.bme = true → (dmaCh s c).st = .running →
    (∀ d, (dmaCh s c).direct = none → (dmaCh s c).desc = some d → d.len ≤ (waitingBytes (dmaCh s c).data).1 → 0 < d.len →
      (takeItems d.len (dmaCh s c).data).bytes ≠ [] →
      ∃ t, exec (.completionTimeout c) s = .next t ∧ (dmaCh t c).st = .halted ∧ (dmaCh t c).error = stHW_FAULT ∧
        (dmaCh t c).completed = (dmaCh s c).completed) ∧
    (∀ a, (dmaCh s c).direct = none → (dmaCh s c).desc = none → (dmaCh s c).next = some a → a < 2 ^ 63 →
      ∃ t, exec (.completionTimeout c) s = .next t ∧
        dmaIs s t c { dmaCh s c with st := .halted, error := stHW_FAULT, waiting := false, desc := none, direct := none, flushDue := false }))

/-- R424, R434 to R436, Table 14-8: DMA_CHAIN starts a channel at a descriptor; DMA_STOP stops it, after the descriptor in
progress where there is one; DMA_COPY moves lines between host memory and HBM; an address that is not aligned is
MISALIGNED. R414 to R418, R420, R422, Tables 14-3 and 14-5: training and retraining of the link, what its loss ends,
Bus Master Enable, and the holdoff of vectors 0 and 1. The model's choices: assumptions 33 and 56. -/
def Obligations.HostLinkAndDma : Prop :=
  (∀ (p : Packet) (s : State),
      let c := p.inst.toNat
      (accepted specDmaChain p s = true →
        (fld (ownOf p) 0 8 % 32 = 0 → exec (.dmaChain p) s = .next (completed 0x0E10 p stOK [] (setDma (consume s p) c (fun d =>
          { d with st := .running, error := 0, completed := 0, waiting := false, next := some (fld (ownOf p) 0 8), desc := none, flushDue := false })))) ∧
        (fld (ownOf p) 0 8 % 32 ≠ 0 → exec (.dmaChain p) s = .next (completed 0x0E10 p stMISALIGNED [] (consume s p)))) ∧
      (accepted specDmaStop p s = true →
        exec (.dmaStop p) s = .next (completed 0x0E11 p stOK [] (setDma (consume s p) c (fun d =>
          if d.st ≠ .running then d else if d.desc.isSome || d.direct.isSome then { d with st := .stopping }
          else { d with st := .stopped, waiting := false })))) ∧
      (∀ f, accepted specDmaCopy p s = true →
        let host := fld (ownOf p) 0 8
        let hbm := fld (ownOf p) 8 8
        let len := fld (ownOf p) 16 4
        (host % 64 ≠ 0 ∨ hbm % 64 ≠ 0 ∨ len % 64 ≠ 0 → exec (.dmaCopy p f) s = .next (completed 0x0E12 p stMISALIGNED [] (consume s p))) ∧
        (host % 64 = 0 → hbm % 64 = 0 → len % 64 = 0 →
          (bit (fld (ownOf p) 20 1) 0 = true → exec (.dmaCopy p f) s = .next (completed 0x0E12 p stOK [] (setDma (consume s p) c (fun d =>
            { d with user := 5, owner := 0, fromHost := false, st := .running, direct := some ⟨host, hbm, len, true, d.st⟩ })))) ∧
          (bit (fld (ownOf p) 20 1) 0 = false → ∀ bs, f = .bytes bs → ∃ t, exec (.dmaCopy p f) s = .next (completed 0x0E12 p stOK [] t) ∧
            t.hbm.mem = memWrite s.hbm.mem hbm (padTo len bs) ∧
            t.host.chans = lmod s.host.chans c (fun d => { d with
              user := 5, owner := 0, fromHost := true, st := .running, direct := some ⟨host, hbm, len, false, d.st⟩ })) ∧
          (bit (fld (ownOf p) 20 1) 0 = false → ∀ st, f = .halted st → c < s.host.chans.length →
            ∃ t, exec (.dmaCopy p f) s = .next (completed 0x0E12 p stOK [] t) ∧ (dmaCh t c).st = .halted ∧ (dmaCh t c).error = failStatus st)))) ∧
  ((∀ (g w : Nat) (flit : Bool) (s : State), 4 ≤ g → g ≤ 6 → w ∈ [1, 4, 8, 16] →
      (s.host.up = false → s.md.powered = true → s.md.rstLow = false → s.md.mode ≠ .dormant →
        ∃ t, exec (.hostLinkTrained g w flit) s = .next t ∧
          t = told { s with host := { s.host with up := true, gen := g, width := w, flit := flit } } t) ∧
      (s.host.up = true → s.host.gen = g → s.host.width = w →
        exec (.hostLinkRetrain g w flit) s = .next { s with host := { s.host with flit := flit } }) ∧
      (s.host.up = true → s.host.gen ≠ g ∨ s.host.width ≠ w → ∃ t, exec (.hostLinkRetrain g w flit) s = .next t ∧
        t = told { s with host := { s.host with gen := g, width := w, flit := flit } } t ∧ bit t.host.sticky 9 = true)) ∧
    (∀ (cause : Fin 3) (s : State), s.host.up = true ∨ (cause.val = 1 ∧ s.md.powered = true ∧ s.md.rstLow = false) → ∃ t, exec (.hostLinkReset cause) s = .next t ∧
      t.ring.cmdEn = false ∧ t.ring.rplEn = false ∧ t.ring.evtEn = false ∧ t.host.bme = false ∧ t.host.masked = List.range 64 ∧
      t.host.up = decide (cause.val = 2) ∧ t.host.downs = satU 32 (s.host.downs + 1) ∧ bit t.host.sticky 9 = true ∧
      (∀ c, c < 32 → c < s.host.chans.length → (dmaCh t c).st = .halted) ∧ t.hbm = s.hbm ∧ t.params = s.params ∧ t.md = s.md) ∧
    (∀ s : State,
      exec (.busMasterEnable true) s = .next { s with out := s.out ++ s.host.parked, host := { s.host with bme := true, parked := [] } } ∧
      exec (.busMasterEnable false) s = .next { s with host := { s.host with bme := false } }) ∧
    (∀ (v : Fin 2) (s : State), nth s.host.holding v false = true →
      (nth s.host.due v false = false → ∃ t, exec (.irqHoldoffExpiry v) s = .next t ∧
        t = { s with host := { s.host with holding := lmod s.host.holding v (fun _ => false), due := t.host.due } } ∧ nth t.host.due v false = false) ∧
      (nth s.host.due v false = true → s.host.funcMask = false → v.val ∉ s.host.masked → s.host.bme = true →
        ∃ t, exec (.irqHoldoffExpiry v) s = .next t ∧ t.out = s.out ++ [.msix v.val] ∧ nth t.host.due v false = false ∧
          nth t.host.holding v false = decide (s.host.holdoff ≠ 0))))

/-- R394 to R399, R405 to R407, Table 13-4: a request that is alone in the queue of a pseudo-channel is served at once; a
full queue holds it at its port. A read delivers the bytes, or poison; a write of whole words changes exactly its
bytes; a write of the whole line clears its poison, and a partial write to a poisoned line is discarded, leaves it
poisoned, and is logged with the writing port. The port's bytes are counted. Poison taints the density unit or fails
the stage manager behind the port. -/
def Obligations.HbmRequestsAreServed : Prop :=
  (∀ (pc : Fin 128) (r : HbmReq) (ns : Nat) (s : State), s.md.mode ≠ .dormant → s.md.mode ≠ .boot → pc.val < stackCount s.variant * 32 →
    tget? s.hbm.queues pc = none → tget? s.hbm.held pc = none → (stack s (pc.val / 32)).sr = .active → reqOk s pc r = true → r.age ≤ par s 0x0D02 r.port →
    (r.write = false → s.hbm.poisoned.contains (r.addr / 64) = false →
      ∃ t, exec (.hbmRequest pc [r] ns .clean) s = .next t ∧ t.hbm.mem = s.hbm.mem ∧
        t.out = s.out ++ [.hbmData r.port (memRead s.hbm.mem r.addr r.len) false] ∧
        tgetD t.hbm.bytes r.port 0 = (tgetD s.hbm.bytes r.port 0 + r.len) % 2 ^ 64) ∧
    (r.write = false → s.hbm.poisoned.contains (r.addr / 64) = true →
      ∃ t, exec (.hbmRequest pc [r] ns .clean) s = .next t ∧ t.out = s.out ++ [.hbmData r.port [] true] ∧
        (∀ u, u < 4 → u < s.dus.length → r.port = 29 + u → (du t u).poisoned = true) ∧ (r.port = 39 → t.hbm.smpPoison = true)) ∧
    (r.write = true → r.addr % 8 = 0 → r.len % 8 = 0 → s.hbm.poisoned.contains (r.addr / 64) = false →
      ∃ t, exec (.hbmRequest pc [r] ns .clean) s = .next t ∧ t.hbm.mem = memWrite s.hbm.mem r.addr (padTo r.len r.data) ∧ t.out = s.out) ∧
    (r.write = true → r.len = 64 → s.hbm.poisoned.contains (r.addr / 64) = true →
      ∃ t, exec (.hbmRequest pc [r] ns .clean) s = .next t ∧ t.hbm.mem = memWrite s.hbm.mem r.addr (padTo 64 r.data) ∧
        t.hbm.poisoned = s.hbm.poisoned.filter (· ≠ r.addr / 64) ∧ t.out = s.out) ∧
    (r.write = true → r.len < 64 → s.hbm.poisoned.contains (r.addr / 64) = true → ∀ ecc, ∃ t,
      exec (.hbmRequest pc [r] ns ecc) s = .next t ∧ t.hbm.mem = s.hbm.mem ∧ t.hbm.poisoned = s.hbm.poisoned ∧
        (∀ b q, Output.hbmData r.port b q ∈ t.out → Output.hbmData r.port b q ∈ s.out) ∧
        ((s.health.log.filter (fun e => !e.fatal)).length < 60 → ∃ e ∈ t.health.log, e.code = 0x1184 ∧ e.inst = r.port ∧ e.seq = s.health.seq + 1) ∧
        (60 ≤ (s.health.log.filter (fun e => !e.fatal)).length → t.health.overflow = satU 32 (s.health.overflow + 1)))) ∧
  (∀ (pc : Fin 128) (r : HbmReq) (ns : Nat) (s : State) (q : List HbmReq), s.md.mode ≠ .dormant → s.md.mode ≠ .boot →
    pc.val < stackCount s.variant * 32 → tget? s.hbm.queues pc = some q → tget? s.hbm.held pc = none →
    (stack s (pc.val / 32)).sr ≠ .active → reqOk s pc r = true →
    (64 ≤ (q.filter (fun x => x.write = r.write)).length → ∃ t, exec (.hbmRequest pc [r] ns .clean) s = .next t ∧
      tgetD t.hbm.held pc [] = [r] ∧ (tgetD t.hbm.queues pc []).length = q.length) ∧
    ((q.filter (fun x => x.write = r.write)).length < 64 → ∃ t, exec (.hbmRequest pc [r] ns .clean) s = .next t ∧
      tgetD t.hbm.held pc [] = [] ∧ (tgetD t.hbm.queues pc []).length = q.length + 1))

/-- R397, R400, R410 to R412: banks, windows, training and self-refresh. R402, R405, R408, R409: the scrubber checks one
line after another; a corrected error is counted, an uncorrectable one poisons its line. HBM_REHASH and SCRUB_FULL
begin long operations of 49,152 blocks. The model's choices: assumptions 22 and 38. -/
def Obligations.HbmMaintenance : Prop :=
  ((∀ (b : Nat) (s : State) (k : Bank), tget? s.hbm.banks b = some k →
      exec (.rowIdleClose b) s = .next { s with hbm := { s.hbm with banks := tput s.hbm.banks b { k with openRow := none } } } ∧
      exec (.bankRefresh b) s = .next { s with hbm := { s.hbm with banks := tput s.hbm.banks b { k with openRow := none } } }) ∧
    (∀ s : State,
      let n := 1536 * stackCount s.variant
      let total := (s.hbm.banks.filter (fun b => decide (b.1 < n))).foldl (fun a b => a + b.2.count) 0
      total ≠ 0 → ∃ t m, exec .bankImbalance s = .next t ∧ (∀ b ∈ s.hbm.banks, b.1 < n → b.2.count ≤ m) ∧
        (∃ b ∈ s.hbm.banks, b.1 = t.hbm.hotBank ∧ b.2.count = m) ∧ t.hbm.imbalance = satU 32 (100 * m * n / total) ∧
        (∀ b ∈ t.hbm.banks, b.2.count = 0)) ∧
    (∀ (k : Fin 4) (s : State), (stack s k).trained = true → (stack s k).sr = .active →
      exec (.eyeRecentre k) s = .next (setStack s k (fun x => { x with centred := x.centred + 1 }))) ∧
    (∀ (k : Fin 4) (s : State), s.md.mode = .watch → k.val < stackCount s.variant → k.val < s.hbm.hbmStacks.length →
      ((stack s k).sr = .active → stackBusy s k = false → ∃ t, exec (.selfRefreshEntry k) s = .next t ∧
        t.hbm.hbmStacks = lmod s.hbm.hbmStacks k (fun x => { x with sr := .entering, srInWindow := true }) ∧ t.hbm.mem = s.hbm.mem) ∧
      ((stack s k).sr = .active → stackBusy s k = true → exec (.selfRefreshEntry k) s = .next s) ∧
      ((stack s k).sr = .entering → exec (.selfRefreshEntry k) s = .next (setStack s k (fun x => { x with sr := .selfRefresh }))) ∧
      (stackBusy s k = true ∨ s.md.transit.isSome = true →
        ((stack s k).sr = .selfRefresh ∨ (stack s k).sr = .entering →
          exec (.selfRefreshExit k) s = .next (setStack s k (fun x => { x with sr := .exiting }))) ∧
        ((stack s k).sr = .exiting → ∃ t, exec (.selfRefreshExit k) s = .next t ∧
          t.hbm.hbmStacks = lmod s.hbm.hbmStacks k (fun x => { x with sr := .active, srExits := (x.srExits + 1) % 2 ^ 64 }) ∧
          ∀ b ∈ t.hbm.banks, b.1 / 1536 = k.val → b.2.pred = 2)))) ∧
  ((∀ (aw ot : Bool) (s : State), liveOp s 0x0D40 = none → liveOp s 0x0D41 = none → s.md.mode ≠ .boot →
      let line := s.hbm.scrubPos / 64
      (stack s (stackOf s (64 * line))).sr = .active →
      (exec (.scrubLine .clean aw ot) s = .next { s with hbm := { s.hbm with scrubPos := (64 * line + 64) % hbmSize s.variant } }) ∧
      (s.hbm.poisoned.contains line = false → ∃ t, exec (.scrubLine .single aw ot) s = .next t ∧
        t = told { s with hbm := { s.hbm with
          scrubPos := (64 * line + 64) % hbmSize s.variant
          hbmStacks := lmod s.hbm.hbmStacks (stackOf s (64 * line)) (fun x => { x with ce := satU 64 (x.ce + 1), ceSeen := true }) } } t) ∧
      (s.hbm.poisoned.contains line = false → ∃ t, exec (.scrubLine .uncorrectable aw ot) s = .next t ∧ line ∈ t.hbm.poisoned ∧
        t.hbm.scrubPos = (64 * line + 64) % hbmSize s.variant ∧
        t.hbm.hbmStacks = lmod s.hbm.hbmStacks (stackOf s (64 * line)) (fun x => { x with ue := satU 64 (x.ue + 1), poisonSeen := true }))) ∧
    (∀ (p : Packet) (s : State),
      let op := fun (opcode : Nat) => ({ handle := s.nextHandle, opcode := opcode, tag := p.tag.toNat, total := 49152 } : LongOp)
      (accepted specHbmRehash p s = true → exec (.hbmRehash p) s = .next (completed 0x0D40 p stACCEPTED (leBytes 4 s.nextHandle)
        { consume s p with nextHandle := s.nextHandle + 1, ops := s.ops ++ [op 0x0D40]
                           hbm := { s.hbm with newFacets := (List.range 11).map (fun i => fld (ownOf p) (8 * i) 8) } })) ∧
      (accepted specScrubFull p s = true → exec (.scrubFull p) s = .next (completed 0x0D41 p stACCEPTED (leBytes 4 s.nextHandle)
        { consume s p with nextHandle := s.nextHandle + 1, ops := s.ops ++ [op 0x0D41] }))))

/-- R28, R30, R122 to R124, R130, R136, R229: an open converter's sample takes the next ordinal of its domain; v is formed
by the coefficients and the range in force and stands newest in the conditioner's history with its flags; an OVR
sample is counted; the level detectors on the channel see it. The model's choices: assumptions 14, 61 and 65. -/
def Obligations.SamplesAreTaken : Prop :=
  ∀ (c : Fin 4) (code : BitVec 12) (ovr : Bool) (s : State),
    sampleOpen s c = true → replaying s = false → s.pend = [] → alignReady s = false → s.md.stopping = none →
    (chan s (domainOf s c)).buf.ended = [] →
    let n := sampleOrd s c
    let d := domainOf s c
    let co := (bgApply (chan s c) n).coef
    let sub := (if paired s && decide (c.val < 2) then n / 2 else n) % 16
    let f := (chan s d).fsInForce
    let v := condV code.toInt (nth (nth co.offsets f []) sub 0) (nth (nth co.gains f []) sub 0) (scaleK (decide (par s 0x0405 d = 1)) f)
    let x : RawSample := { v := satS 18 v, sat := satHit 18 v, ovr := ovr, stl := decide (n < (chan s d).stlEnd), gap := false
                           skew := nth co.skews sub 0 * 256 + (if paired s && decide (c.val = 1) then co.skewPair else 0) }
    ∃ t, exec (.sampleWord c code ovr) s = .next t ∧
      (chan t c).count = (chan s c).count + 1 ∧ (chan t d).hist = x :: (chan s d).hist.take 50 ∧
      (chan t d).ovrCount = (chan s d).ovrCount + b2n ovr ∧ (ovr = true → (chan t d).ovrSeen = true) ∧
      (∀ k, k < 16 → k < s.cue.above.length → par s 0x0818 k = 0x0100 + d →
        let r := lvlStep (nth s.cue.above k false) (parI s 0x0819 k) (parI s 0x081A k) code.toInt
        nth t.cue.above k false = r.1 ∧
        (∀ e, r.2 = some e → ∃ i ∈ t.cue.arriving, i.kind = 2 ∧ i.inst = k ∧ i.ord = n ∧ i.tests = [e])) ∧
      t.params = s.params ∧ t.md = s.md ∧ t.pend = [] ∧ t.ops = s.ops ∧ t.pdac = s.pdac

/-- R125, R127, R142, R272: what the converters' background work finds. A loss of signal declared or cleared is noted and
posted as CONV_LOS; a setting whose count has reached 2^30 is posted as CONV_CAL_STALE, latched; an update whose
ordinal has come replaces the coefficient set in force, and an update that is not due leaves all as it is. The model's
choices: assumption 12. -/
def Obligations.ConverterCalibration : Prop :=
  (∀ (c : Fin 4) (s : State),
    (∀ on n, (chan s c).losDue = some (on, n) → exec (.convLos c) s = .next
      (raise (setChan s c (fun ch => { ch with los := on, losDue := none })) 0x0401 c (b2n on) (some (domainOf s c, n)))) ∧
    ((chan s c).losDue = none → exec (.convLos c) s = .next s)) ∧
  (∀ (c fs : Fin 4) (s : State) (f n : Nat), (chan s c).staleDue.find? (fun d => d.1 = fs.val) = some (f, n) →
    ∃ t, exec (.convCalStale c fs) s = .next t ∧ (0x0403, domainOf s c) ∈ t.ev.latches ∧
      t = told (setChan s c (fun ch => { ch with staleDue := ch.staleDue.filter (fun d => d.1 ≠ fs.val) })) t) ∧
  (∀ (c : Fin 4) (s : State), ∃ t, exec (.bgcalUpdate c) s = .next t ∧
    t = { s with chans := t.chans, caps := t.caps, pair := { s.pair with draft := t.pair.draft } } ∧
    ((∃ u ∈ (chan s c).updates, u.1 ≤ sampleOrd s c) → t.chans = lmod s.chans c (fun ch => bgApply ch (sampleOrd s c)) ∧
      (s.pair.sync = false → t.pair = s.pair)) ∧
    ((∀ u ∈ (chan s c).updates, sampleOrd s c < u.1) → t = s))

/-- R496: ERRLOG_READ answers the count of the entries, the overflow and the entries; ERRLOG_CLEAR takes out the entries
of the states that its payload names. R126, R128, R144, R145, R148: CONV_CAL_READ answers the set in force;
CONV_CAL_LOAD keeps one for the next START; CALIBRATE_CONVERTERS starts an operation and powers the PLLs of the
channels that it names, each PLL as the mode and the operations want it. The model's choices: assumptions 22, 65 and
67. -/
def Obligations.LogAndCalibrationCommands : Prop :=
  (∀ (p : Packet) (s : State),
      (accepted specErrlogRead p s = true → exec (.errlogRead p) s = .next (completed 0x0202 p stOK
        (leBytes 2 s.health.log.length ++ leBytes 4 s.health.overflow ++ zeros 10 ++ s.health.log.flatMap errBytes) (consume s p))) ∧
      (accepted specErrlogClear p s = true → exec (.errlogClear p) s = .next (completed 0x0203 p stOK []
        { consume s p with health := { s.health with
          log := s.health.log.filter (fun e => !(decide (2 ≤ e.st) && bit (fld (ownOf p) 0 1) (e.st - 2))) } }))) ∧
  ((∀ (p : Packet) (s : State), accepted specConvCalRead p s = true →
      exec (.convCalRead p) s = .next (completed 0x0410 p stOK (coefBytes (decide (p.inst = 1)) (chan s p.inst.toNat).coef) (consume s p))) ∧
    (∀ (p : Packet) (s : State), accepted specConvCalLoad p s = true →
      exec (.convCalLoad p) s = .next (completed 0x0411 p stOK []
        (setChan (consume s p) p.inst.toNat (fun ch => { ch with loaded := some (bytesCoef (ownOf p)), loadedValid := true })))) ∧
    (∀ (p : Packet) (s : State), accepted specCalibrate p s = true →
      let m := fld (ownOf p) 0 1
      ∃ t, exec (.calibrateConverters p) s = .next (completed 0x0440 p stACCEPTED (leBytes 4 s.nextHandle) t) ∧
        t = { consume s p with nextHandle := s.nextHandle + 1, ops := t.ops, clk := { s.clk with plls := t.clk.plls } } ∧
        t.ops.map (fun o => (o.handle, o.opcode, o.state)) = s.ops.map (fun o => (o.handle, o.opcode, o.state)) ++
          [(s.nextHandle, 0x0440, .running)] ∧
        ∀ k, k < s.clk.plls.length → (nth t.clk.plls k {}).powered = pllWanted t s.md.mode k ∧
          (k < 2 → m / 4 ^ k % 4 ≠ 0 → (nth t.clk.plls k {}).powered = true)))

/-- R18, R24 to R26, R187: data that finds its producer's buffer full begins a gap at its block of 64, and data that finds
room begins none; once the buffer has drained to half, the gap ends at the next block boundary: it is numbered, its
marker stands in the buffer in its place, and the source goes on behind it; a zoom that takes the marker marks the
outputs that the gap touches. The model's choices: assumption 28. -/
def Obligations.GapsAreMarked : Prop :=
  (∀ (c : Fin 4) (first : Nat) (s : State), (chan s c).running = true → replaying s = false → domainOf s c = c.val →
    (chan s c).buf.dropping = none →
    (bufHeld (chan s c).buf (ordNext s c) first = (if paired s = true ∧ c = 0 then 131072 else 65536) →
      exec (.producerBufferFull (.channel c) first) s =
        .next (setChan s c (fun ch => { ch with buf := { ch.buf with dropping := some (first / 64 * 64), found := first } }))) ∧
    (bufHeld (chan s c).buf (ordNext s c) first < 65536 → exec (.producerBufferFull (.channel c) first) s = .next s)) ∧
  (∀ (first : Nat) (s : State), s.aux.running = true → s.aux.buf.dropping = none → bufHeld s.aux.buf s.aux.next first = 4096 →
    exec (.producerBufferFull .aux first) s =
      .next { s with aux := { s.aux with buf := { s.aux.buf with dropping := some (first / 64 * 64), found := first } } }) ∧
  (∀ (i : Fin 32) (first : Nat) (s : State), (tiuIn s i).dropping = none → (tiuIn s i).issued = first → 512 ≤ (tiuIn s i).fifo.length →
    exec (.producerBufferFull (.tiu i) first) s = .next (setTiuIn s i (fun x => { x with
      dropping := some (first / 64 * 64), fifo := x.fifo.filter (fun y => decide (y.number < first / 64 * 64)) }))) ∧
  (∀ (c : Fin 4) (resume : Nat) (s : State) (f : Nat), (chan s c).buf.dropping = some f →
    bufHeld (chan s c).buf (ordNext s c) f ≤ bufDepth s c / 2 → (chan s c).buf.found < resume → resume % 64 = 0 →
    s.md.stopping = none → s.pend = [] →
    ((∀ x ∈ (chan s c).buf.ended, x.1 ≠ ordNext s c) → ordNext s c < f →
      exec (.gap (.channel c) resume) s = .next (loseSync (channelGap s c f (resume - 1)) 3)) ∧
    ((chan s c).buf.ended = [] → ordNext s c = f → f < resume → (chan s c).running = true → s.pair.started = false →
      (paired s = true → c = 0 ∧ (chan s 1).running = true) →
      ∃ t, exec (.gap (.channel c) resume) s = .next t ∧ ordNext t c = resume ∧
        (chan t c).buf = { (chan s c).buf with dropping := none, gaps := (chan s c).buf.gaps + 1 })) ∧
  (∀ (resume : Nat) (s : State) (f : Nat), s.aux.buf.dropping = some f → bufHeld s.aux.buf s.aux.next f ≤ 2048 →
    s.aux.buf.found < resume → resume % 64 = 0 →
    ∃ t, exec (.gap .aux resume) s = .next t ∧ t.aux.gapSeen = true ∧ t.aux.buf.gaps = s.aux.buf.gaps + 1 ∧ t.aux.buf.dropping = none ∧
      (s.aux.buf.ended = [] → s.aux.next = f → t.aux.next = resume ∧ t.aux.buf.ended = []) ∧
      (s.aux.buf.ended = [] → s.aux.next < f → t.aux.next = s.aux.next ∧ t.aux.buf.ended = [(f, resume - 1)])) ∧
  (∀ (i : Fin 32) (resume : Nat) (s : State) (f : Nat), (tiuIn s i).dropping = some f → (tiuIn s i).fifo.length ≤ 256 → f < resume →
    resume % 64 = 0 → (tiuIn s i).issued = resume →
    ∃ t, exec (.gap (.tiu i) resume) s = .next t ∧
      t.tiu.inputs = lmod s.tiu.inputs i (fun x => { x with dropping := none, gaps := x.gaps + 1, gapSeen := true })) ∧
  (∀ (z : Fin 32) (m : GapMarker) (s : State) (lo hi : Nat), (nth s.zooms z {}).running = true → (nth s.zooms z {}).later = [] →
    zoomChan s z = m.source % 256 → zoomGapRange s z m = some (lo, hi) →
    exec (.gapMarkerReceived (.zoom z) m) s = .next (setZoom s z (fun zm => { zm with
      gaps := zm.gaps ++ [{ first := lo, last := hi, marker := m }], gapsOut := zm.gapsOut ++ [{ m with first := lo, last := hi }] }))) ∧
  (∀ (n : Fin 16) (m : GapMarker) (s : State), (stream s n).later = [] →
    ((stream s n).running = false → exec (.gapMarkerReceived (.stream n) m) s = .next s) ∧
    ((stream s n).running = true → isZoomCode (xfSrc s n) = true → m.first ≤ m.last → (stream s n).base ≤ m.last →
      exec (.gapMarkerReceived (.stream n) m) s = .next (setStream s n (fun st => { st with
        gaps := st.gaps ++ [{ first := m.first, last := m.last, marker := m }] }))))

/-- R17, R188, R190, R200 to R202, R225: a zoom delivers 64 outputs as a block, and its last short block where a disable
ends it, before the turn that waits begins; a stream whose inputs have come delivers its next frame, of which every
comparator on its frames takes an item; what a full consumer holds back stays. The model's choices: assumptions 12 and
65. -/
def Obligations.BlocksAndFrames : Prop :=
  (∀ (z : Fin 32) (s : State), let zm := nth s.zooms z {}
    (zoomBlocked s z = true → exec (.zoomBlock z) s = .next s) ∧
    (zoomBlocked s z = false → 64 ≤ zm.outs.length → ∃ t, exec (.zoomBlock z) s = .next t ∧
      (nth t.zooms z {}).outs = zm.outs.drop 64 ∧ (nth t.zooms z {}).outIndex = zm.outIndex + 64 ∧
      (nth t.zooms z {}).running = zm.running ∧ t.params = s.params ∧ t.md = s.md) ∧
    (zoomBlocked s z = false → zm.outs.length < 64 → zm.running = true → zoomDone s z = true → ∃ t, exec (.zoomBlock z) s = .next t ∧
      (zm.later = [] → (nth t.zooms z {}).outs = [] ∧ (nth t.zooms z {}).running = false) ∧
      (∀ x rest, zm.later = x :: rest → (nth t.zooms z {}).running = true ∧ (nth t.zooms z {}).later = rest)) ∧
    (zoomBlocked s z = false → zm.outs.length < 64 → zoomDone s z = false → exec (.zoomBlock z) s = .next s)) ∧
  (∀ (n : Fin 16) (s : State), let st := stream s n
    st.running = true → st.hops = [] → st.stopAt = none → frameMarked s n = true →
    (frameHeld s n = true → exec (.frameRecord n) s = .next s) ∧
    (frameHeld s n = false → 0 < xfP s n → (∀ p, p < xfP s n → (frameInputs s n p).isSome = true) →
      ∃ t, exec (.frameRecord n) s = .next t ∧ (stream t n).frame = st.frame + 1 ∧ (stream t n).segNew = false ∧
        (stream t n).running = true ∧
        (∀ m ∈ masksOf s n 0, ∃ i ∈ t.cue.arriving, i.kind = 1 ∧ i.inst = m ∧ i.ord = frameEval s n)) ∧
    ((∃ p, p < xfP s n ∧ frameInputs s n p = none) →
      exec (.frameRecord n) s = .next s))

/-- R205, R228, R256: USER windows and mask tables are loaded and read; MASK_LOAD writes the shadow buffer alone;
MASK_SWAP takes effect at an ordinal, or at the next start where the stream is stopped. R231, R239, R256: CUE_LOAD
replaces an image and returns its sheet to cue 0; CUE_READ answers it; CUE_TASK and CUE_HOST wait for their cue
ordinal, or reach their sheets at the applied ordinal that the reply gives, which makes them timed; work rehearsed
past that ordinal is struck (R43). The model's choices: assumptions 14 and 62. -/
def Obligations.WindowsMasksAndCues : Prop :=
  (∀ (p : Packet) (s : State),
      let own := ownOf p
      let i := p.inst.toNat
      (accepted specXfWindowLoad p s = true → exec (.xfWindowLoad p) s = .next (completed 0x0710 p stOK []
        (setStream (consume s p) i (fun st => { st with
          user := tputAll st.user ((List.range (fld own 4 2)).map (fun k => (fld own 0 4 + k, fld own (8 + 4 * k) 4))) (fun _ => 0) })))) ∧
      (accepted specXfWindowRead p s = true → exec (.xfWindowRead p) s = .next (completed 0x0711 p stOK
        (own.take 8 ++ (List.range (fld own 4 2)).flatMap (fun k => leBytes 4 (tgetD (stream s i).user (fld own 0 4 + k) 0))) (consume s p))) ∧
      (accepted specMaskLoad p s = true → i < s.cue.masks.length →
        let l := (List.range (fld own 2 2)).map (fun k => (fld own 4 4 + k, fld own (8 + 2 * k) 2))
        let k := nth s.cue.masks i {}
        ∃ k', exec (.maskLoad p) s = .next (completed 0x0852 p stOK []
            { consume s p with cue := { s.cue with masks := lmod s.cue.masks i (fun _ => k') } }) ∧
          (fld own 0 1 = 0 → k.active = 0 → k' = { k with upper1 := tputAll k.upper1 l (fun _ => 65535) }) ∧
          (fld own 0 1 = 0 → k.active ≠ 0 → k' = { k with upper0 := tputAll k.upper0 l (fun _ => 65535) }) ∧
          (fld own 0 1 = 1 → k.active = 0 → k' = { k with lower1 := tputAll k.lower1 l (fun _ => 0) }) ∧
          (fld own 0 1 = 1 → k.active ≠ 0 → k' = { k with lower0 := tputAll k.lower0 l (fun _ => 0) })) ∧
      (accepted specMaskRead p s = true → ∃ out, exec (.maskRead p) s = .next (completed 0x0856 p stOK (own.take 8 ++ out) (consume s p)) ∧
        (fld own 0 1 = 0 → (nth s.cue.masks i {}).active = 0 →
          out = (List.range (fld own 2 2)).flatMap (fun k => leBytes 2 (tgetD (nth s.cue.masks i {}).upper0 (fld own 4 4 + k) 65535))) ∧
        (fld own 0 1 = 3 → (nth s.cue.masks i {}).active = 0 →
          out = (List.range (fld own 2 2)).flatMap (fun k => leBytes 2 (tgetD (nth s.cue.masks i {}).lower1 (fld own 4 4 + k) 0)))) ∧
      (accepted specMaskSwap p s = true →
        let n := maskStream s i
        let set := fun (f : Mask → Mask) => { consume s p with cue := { s.cue with masks := lmod s.cue.masks i f } }
        (pktAt p = true → exec (.maskSwap p) s = .next (completed 0x0853 p stOK []
          (schedule (consume s p) p 0x0853 (xfChan s n) (fld (payloadOf p) 0 8) (.maskSwap i)))) ∧
        (pktAt p = false → (stream s n).running = true → exec (.maskSwap p) s = .next (completed 0x0853 p stOK
          (leBytes 8 (appliedOrd s (xfChan s n))) (set (fun k => { k with swapAt := some (appliedOrd s (xfChan s n)) })))) ∧
        (pktAt p = false → (stream s n).running = false → exec (.maskSwap p) s = .next (completed 0x0853 p stOK []
          (set (fun k => { k with swapAtStart := true })))))) ∧
  (∀ (p : Packet) (s : State),
      let own := ownOf p
      let n := appliedOrd s (cueChan s)
      (accepted specCueLoad p s = true → exec (.cueLoad p) s = .next (completed 0x0850 p stOK []
        (setSheet (consume s p) p.inst.toNat (fun sh => { sh with image := own, core := { sh.core with cue := 0 }, checks := [] })))) ∧
      (accepted specCueRead p s = true → exec (.cueRead p) s = .next (completed 0x0855 p stOK (sheetOf s p.inst.toNat).image (consume s p))) ∧
      (accepted specCueTask p s = true →
        (pktAt p = true → exec (.cueTask p) s = .next (completed 0x0851 p stOK []
          (schedule (consume s p) p 0x0851 (cueChan s) (fld (payloadOf p) 0 8) (.cueTask (fld own 0 1) (fld own 1 1))))) ∧
        (pktAt p = false → replaying s = false → ∃ t, exec (.cueTask p) s = .next (completed 0x0851 p stOK (leBytes 8 n) t) ∧
          t = { consume s p with cue := { s.cue with sheets := t.cue.sheets } } ∧
          ∀ i, i < s.cue.sheets.length → sheetOf t i = if i < 8 ∧ bit (fld own 0 1) i = true then
              { sheetOf s i with
                tasks := (sheetOf s i).tasks ++ [{ ord := Nat.max n s.cue.played, input := fld own 1 1, src := 0, timed := true }]
                checks := (sheetOf t i).checks
                strikes := if (sheetOf s i).checks.any (fun c => decide (Nat.max n s.cue.played < c.1)) then
                  satU 64 ((sheetOf s i).strikes + 1) else (sheetOf s i).strikes }
            else sheetOf s i)) ∧
      (accepted specCueHost p s = true →
        (pktAt p = true → exec (.cueHost p) s = .next (completed 0x0854 p stOK []
          (schedule (consume s p) p 0x0854 (cueChan s) (fld (payloadOf p) 0 8) (.cueHost (fld own 0 1))))) ∧
        (pktAt p = false → exec (.cueHost p) s = .next (completed 0x0854 p stOK (leBytes 8 n)
          { consume s p with cue := { s.cue with arriving := s.cue.arriving ++
            [{ kind := 7, inst := fld own 0 1, ord := n, tests := [2], flags := 32 }] } }))))

/-- R46, R242, R244: the first arriving item is taken in ordinal order; one that comes late is taken at the oldest
unplayed ordinal; a sheet whose rehearsed work lies past it counts a strike; an item past the limit waits. R44, R230,
R233 to R238, R243: the next ordinal of the cue channel plays once every source has progressed past it: each sheet
moves by its tasks and its evaluation point, its fires are counted; a timeout plays at the entry ordinal plus its
maximum. A timer's tick arrives at its ordinal. The model's choices: assumption 29. -/
def Obligations.CuesAreRehearsedAndPlayed : Prop :=
  (∀ (s : State) (x : Item) (rest : List Item), s.cue.arriving = x :: rest →
      (rehearseHeld s x = true → exec .itemRehearse s = .next s) ∧
      (rehearseHeld s x = false →
        let late := decide (x.ord < s.cue.played)
        let y := if late then { x with ord := s.cue.played, late := true } else x
        ∃ t, exec .itemRehearse s = .next t ∧ t.cue.arriving = rest ∧ t.cue.items = insertByOrd y s.cue.items ∧
          t.cue.played = s.cue.played ∧
          (∀ i, i < 8 → (sheetOf t i).strikes =
            if i ∈ usersOf s x.kind x.inst ∧ (sheetOf s i).checks.any (fun c => decide (y.ord < c.1)) = true
            then satU 64 ((sheetOf s i).strikes + 1) else (sheetOf s i).strikes) ∧
          (late = true → ∀ i ∈ usersOf s x.kind x.inst, (sheetOf t i).lateSeen = true))) ∧
  ((∀ (n : Nat) (s : State), running s (cueChan s) = true → s.cue.played ≤ n → n < playBound s → (∀ m, nextAct s = some m → n ≤ m) →
      let after := fun (t : State) => t.cue.played = n + 1 ∧ ∀ i, i < 8 →
        let r := sheetAt (sheetOf s i).image s.cue.items (sheetOf s i).tasks (sheetOf s i).core n
        (sheetOf t i).core = r.1 ∧
        (sheetOf t i).fires = (sheetOf s i).fires + (r.2.filter (fun a => match a with | .fire _ _ _ _ _ _ => true | _ => false)).length
      (∃ t, exec (.sheetPlay n) s = .next t ∧ after t) ∧
      (∀ i : Fin 8, (sheetOf s i).core.st = .armed → cueMax (imgCue (sheetOf s i).image (sheetOf s i).core.cue) ≠ 0 →
        ((sheetOf s i).core.e + (cueMax (imgCue (sheetOf s i).image (sheetOf s i).core.cue) : Int)).toNat = n →
        ∃ t, exec (.cueTimeout i) s = .next t ∧ after t)) ∧
    (∀ (n : Nat) (s : State), playBound s ≤ n ∨ n < s.cue.played ∨ running s (cueChan s) = false → exec (.sheetPlay n) s = .next s) ∧
    (∀ (k : Fin 8) (s : State), let period := par s 0x080C k
      let n := par s 0x080B k + nth s.cue.timerNext k 0 * period
      running s (cueChan s) = true → period ≠ 0 → n ≤ ordNext s (cueChan s) →
      exec (.cueTimerTick k) s = .next { s with cue := { s.cue with
        timerNext := lmod s.cue.timerNext k (· + 1)
        arriving := s.cue.arriving ++ [{ kind := 9, inst := k.val, ord := n, tests := [2] }] } }))

/-- R258, R261, R266 to R268: arming and disarming take effect at their cue ordinal or at the applied one, on the units
named alone, and a disarmed unit keeps the span of its arming for triggers still to be played; a CONTINUOUS record
that ends rolls over to the next ordinal; the policy steps the unit of lowest priority down above 75% and the last one
up again below 25%; a step takes effect once its source has reached it, a stream's at its frames. The model's choices:
assumptions 14, 26 and 65. -/
def Obligations.CaptureUnits : Prop :=
  (∀ (p : Packet) (s : State), let m := fld (ownOf p) 0 2
    (accepted specCapArm p s = true →
      (pktAt p = true → exec (.capArm p) s = .next (completed 0x0950 p stOK []
        (schedule (consume s p) p 0x0950 (cueChan s) (fld (payloadOf p) 0 8) (.capArm m)))) ∧
      (pktAt p = false → ∃ t, exec (.capArm p) s = .next (completed 0x0950 p stOK
          (if anyRunning s then leBytes 8 (capApplied s) else []) t) ∧ t = { consume s p with caps := t.caps } ∧
        ∀ u, u < s.caps.length → if bit m u = true ∧ u < 16 then (cap t u).armed = true ∧ (cap t u).armOrd = capApplied s ∧
            (par s 0x0903 u ≠ 2 → (cap t u).recs = (cap s u).recs ∧ (cap t u).recsArmed = 0)
          else cap t u = cap s u)) ∧
    (accepted specCapDisarm p s = true →
      (pktAt p = true → exec (.capDisarm p) s = .next (completed 0x0951 p stOK []
        (schedule (consume s p) p 0x0951 (cueChan s) (fld (payloadOf p) 0 8) (.capDisarm m)))) ∧
      (pktAt p = false → ∃ t, exec (.capDisarm p) s = .next (completed 0x0951 p stOK
          (if anyRunning s then leBytes 8 (capApplied s) else []) t) ∧
        ∀ u, u < s.caps.length → (cap t u).armed = ((cap s u).armed && !(bit m u && decide (u < 16))) ∧
          (bit m u = true → u < 16 → (cap s u).armed = true → ∃ k, ((cap s u).armOrd, capApplied s, k) ∈ (cap t u).wins)))) ∧
  (∀ (u : Fin 16) (s : State) (r : OpenRec) (g : Seg), (cap s u).recs = [r] → r.segs = [g] → r.mode = 2 → r.final = false → r.until_ = none →
    g.first ≤ g.last → g.last < Nat.min s.cue.played (capProgress s u) → par s 0x0909 u = 0 →
    ∃ t, exec (.recordRollover u) s = .next t ∧ (cap t u).e = some g.last ∧ (cap t u).records = (cap s u).records + 1 ∧
      (cap t u).recs.map (fun x => (x.mode, x.first)) = [(2, g.last + 1)]) ∧
  (∀ (u : Fin 16) (s : State) (sigma new : Nat), (cap s u).running = true → (cap s u).stepPend = some (sigma, new) →
    (capProgress s u < sigma ∨ capKind s u = 3 → exec (.captureRateStep u) s = .next s) ∧
    (sigma ≤ capProgress s u → capKind s u ≠ 3 → ∃ t, exec (.captureRateStep u) s = .next t ∧ (cap t u).step = new ∧ (cap t u).stepPend = none ∧
      (cap t u).oldStep = (cap s u).step ∧ (cap t u).stepCount = (cap s u).stepCount + 1)) ∧
  (∀ (below : Bool) (s : State), (s.pair.role = 2 → s.pair.sync = false) →
    (∀ u, 7500 < backlog01 s → stepDownUnit s = some u → ∃ t, exec (.rateStepDecision below) s = .next t ∧
      t = told { s with caps := lmod s.caps u (fun c => { c with stepPend := some (sigmaOf s u, c.step + 1) })
                        reduce := { s.reduce with stack := u :: s.reduce.stack, above := true } } t) ∧
    (∀ u rest, backlog01 s < 2500 → below = true → s.reduce.stack = u :: rest → (cap s u).step ≠ 0 →
      ∃ t, exec (.rateStepDecision below) s = .next t ∧
        t = told { s with caps := lmod s.caps u (fun c => { c with stepPend := some (sigmaOf s u, c.step - 1) })
                          reduce := { stack := rest, above := false } } t))

/-- R281 to R285, R287, R288: an open extent is placed on the next member with a free slot, or shadowed on an UNDERSTUDY;
a journal write commits its entries and issues the writes they allow; a checkpoint advances the superblock; the last
copy makes an extent DONE; a failed copy moves once to another member, and an extent without copies is FAILED; a lost
member is marked. The model's choices: assumptions 46, 65 and 66. -/
def Obligations.ExtentsAndJournal : Prop :=
  (∀ (u : Fin 16) (s : State), (openExtent s.store u = none → exec (.extentClose u) s = .next s) ∧
    (∀ e m k, openExtent s.store u = some e → shadows s = false → par s 0x0A04 0 ≠ 1 → s.store.mirror = false →
      allocate s.store s.store.cycle [] = some (m, k) → ∃ t, exec (.extentClose u) s = .next t ∧
        (∀ x ∈ t.store.extents, x.serial = e.serial → x.state = 1 ∧ x.copies = [{ member := m, slot := k }]) ∧
        t.store.cycle = m ∧ k ∈ (nth t.store.members m {}).used ∧ t.store.jseq = s.store.jseq + 1) ∧
    (∀ e, openExtent s.store u = some e → shadows s = false → par s 0x0A04 0 ≠ 1 → allocate s.store s.store.cycle [] = none →
      ∃ t, exec (.extentClose u) s = .next t ∧ t = told { s with store := { s.store with full := true } } t) ∧
    (∀ e, openExtent s.store u = some e → shadows s = true → ∃ t, exec (.extentClose u) s = .next t ∧
      (∀ x ∈ t.store.extents, x.serial = e.serial → x.state = 6) ∧ ∃ h, t.pair.shadow = s.pair.shadow ++ [h] ∧ h.serial = e.serial)) ∧
  (∀ s : State, s.store.committed < s.store.jseq → activeMembers s.store ≠ [] → ∃ t, exec .journalWrite s = .next t ∧
    (s.store.state ≠ 2 ∨ s.store.jseq < s.store.checkpoint + 261632 → t.store.committed = s.store.jseq) ∧
    (∀ m ∈ activeMembers s.store, ∀ g, s.store.committed / 64 ≤ g → g ≤ (s.store.jseq - 1) / 64 →
      Output.nvmeWrite m (journalBlockOf (64 * g + 1)) (journalBlock s.store g) ∈ t.out) ∧
    ∀ e ∈ s.store.extents, e.state = 1 → s.store.committed < e.jseq → ∀ c ∈ e.copies,
      ∀ w ∈ copyWrites s.store e c.member c.slot, w ∈ t.out) ∧
  (∀ s : State, s.store.state = 2 → activeMembers s.store ≠ [] → s.store.committed ≤ s.store.jseq → ∃ t, exec .checkpoint s = .next t ∧
    t.store.generation = s.store.generation + 1 ∧ t.store.clean = false ∧ t.store.checkpoint = s.store.jseq ∧
    ∀ m ∈ activeMembers s.store, Output.nvmeWrite m (superCopy (s.store.generation + 1)) (superblock t.store m) ∈ t.out) ∧
  (∀ (serial : Nat) (copy : Fin 2) (s : State) (e : Extent), findExtent s.store serial = some e → e.state = 1 → copy.val < e.copies.length →
    let c := nth e.copies copy { member := 0, slot := 0 }
    (e.jseq ≤ s.store.committed → c.failed = false →
      (∀ x ∈ lmod e.copies copy (fun c => { c with done := true }), x.done = true ∨ x.failed = true) →
      ∃ t, exec (.extentWriteCompletion serial copy) s = .next t ∧ ∀ x ∈ t.store.extents, x.serial = serial → x.state = 2) ∧
    (e.jseq ≤ s.store.committed → c.failed = false →
      (∃ x ∈ lmod e.copies copy (fun c => { c with done := true }), x.done = false ∧ x.failed = false) →
      exec (.extentWriteCompletion serial copy) s = .next (setExtent s serial (fun e => { e with
        copies := lmod e.copies copy (fun c => if c.failed then c else { c with done := true }) }))) ∧
    (∀ reason m k, c.done = false → c.failed = false → c.retried = false →
      allocate s.store s.store.cycle (e.copies.map (·.member)) = some (m, k) →
      ∃ t, exec (.storeWriteFailed serial copy reason false) s = .next t ∧ (∀ w ∈ copyWrites s.store e m k, w ∈ t.out) ∧
        ∀ x, findExtent t.store serial = some x → nth x.copies copy { member := 0, slot := 0 } = { member := m, slot := k, retried := true }) ∧
    (∀ reason, c.done = false → c.failed = false → c.retried = true → e.copies.length = 1 →
      ∃ t, exec (.storeWriteFailed serial copy reason false) s = .next t ∧ ∀ x ∈ t.store.extents, x.serial = serial → x.state = 3)) ∧
  (∀ (m : Fin 8) (s : State), (nth s.store.members m {}).state = 1 → ∃ t, exec (.storeMemberLost m) s = .next t ∧
    t.store.degraded = true ∧ t.store.members.map (·.state) = lmod (s.store.members.map (·.state)) m (fun _ => 2))

/-- R290, R292, R294 to R297: the store's commands: a format invalidates every superblock first; a mount reads the
superblock of the highest generation, and finds the store in use or tells why not; an unmount seals it; a list answers
headers in record order; a delete frees its range; an export binds its DMA channel; a replay runs its channel from the
record's first ordinal. The model's choices: assumptions 47, 48, 49, 50 and 66. -/
def Obligations.StoreCommands : Prop :=
  ∀ (p : Packet) (s : State),
    let own := ownOf p
    (accepted specStoreFormat p s = true →
      let ms := setBits 8 (fld own 0 1)
      exec (.storeFormat p) s = .next (completed 0x0A40 p stACCEPTED (leBytes 4 s.nextHandle)
        { consume s p with
          nextHandle := s.nextHandle + 1
          ops := s.ops ++ [{ handle := s.nextHandle, opcode := 0x0A40, tag := p.tag.toNat, total := ms.length
                             work := { units := ms, args := [fld own 0 1, fld own 1 1, fld own 2 1] } }]
          out := s.out ++ ms.map (fun m => Output.nvmeZero m 0 2)
          store := { s.store with state := 5, formatted := false, records := [], extents := [], catalogue := [], journal := [], jseq := 0
                                  committed := 0, full := false, locked := false, catTip := 0, catFill := 0, catBlock := [],
                                  catExtents := [], touched := []
                                  members := s.store.members.map (fun m => { m with used := [] }) } })) ∧
    (∀ f, accepted specStoreMount p s = true → ∃ t, exec (.storeMount p f) s = .next (completed 0x0A50 p stOK [] t) ∧
      (mountSuper s f = none → t.store.formatted = false ∧
        t.store.state = if (mountMembers s f).all (fun m => m.state = 0) then 0 else 5) ∧
      (∀ sb, mountSuper s f = some sb → t.store.formatted = true ∧ t.store.mirror = bit (fld sb 10 2) 0 ∧
        t.store.encrypted = bit (fld sb 10 2) 1 ∧
        t.store.locked = (bit (fld sb 10 2) 1 && !(s.sec.keys.contains (fld sb 172 8))) ∧
        ((∃ m, m < 8 ∧ m < s.store.members.length ∧ portState s f (some sb) m = 1) → t.store.state = 2 ∧ t.store.clean = false) ∧
        ((∀ m, m < 8 → portState s f (some sb) m ≠ 1) → t.store.state = 4))) ∧
    (accepted specStoreUnmount p s = true → ∃ t, exec (.storeUnmount p) s = .next (completed 0x0A51 p stOK [] t) ∧
      t.store.state = 0 ∧ (s.store.state = 2 → activeMembers s.store ≠ [] → t.store.clean = true)) ∧
    (accepted specStoreList p s = true → exec (.storeList p) s = .next (completed 0x0A52 p stOK
      (((s.store.records.filter (fun r => decide (fld own 0 8 ≤ r.number) && r.sealed)).take (fld own 8 1)).map
        (fun r => stampHeader r.header r.state r.damage)).flatten (consume s p))) ∧
    (accepted specStoreDelete p s = true → ∃ t, exec (.storeDelete p) s = .next (completed 0x0A53 p stOK [] t) ∧
      t = { consume s p with store := t.store } ∧ t.store.records.map (·.number) = s.store.records.map (·.number) ∧
      ∀ r ∈ t.store.records, fld own 0 8 ≤ r.number → r.number ≤ fld own 8 8 → r.state = 4) ∧
    (accepted specStoreExport p s = true → exec (.storeExport p) s = .next (completed 0x0A41 p stACCEPTED (leBytes 4 s.nextHandle)
      { setDma (consume s p) (fld own 16 1) (fun d => { d with user := 2, owner := s.nextHandle, fromHost := false }) with
        nextHandle := s.nextHandle + 1
        ops := s.ops ++ [{ handle := s.nextHandle, opcode := 0x0A41, tag := p.tag.toNat, total := exportBlocks s (fld own 0 8) (fld own 8 8)
                           work := { args := [fld own 0 8, fld own 8 8, fld own 16 1, fld own 17 1] } }] })) ∧
    (∀ r, accepted specReplay p s = true → rawRec s (fld own 0 8) = some r → s.chans.length = 4 →
      ∃ t, exec (.replay p) s = .next (completed 0x0A42 p stACCEPTED (leBytes 4 s.nextHandle) t) ∧
        (∀ c ∈ replayChans s (fld own 8 1), (chan t c).running = true) ∧ ordNext t (fld own 8 1) = fld r.header 48 8 ∧
        (liveOp t 0x0A42).map (·.handle) = some s.nextHandle)

/-- R28, R48, R103, R144, R563: START starts every enabled channel at one instant at ordinal 0, with the coefficients
loaded since; STOP waits for its cue ordinal, or stops every channel at its first sample at or after the instant of
the ordinal that the reply gives; once all have stopped, no change waits any longer; a STOP in progress is not begun
again. The model's choices: assumptions 14, 15, 60, 65 and 67. -/
def Obligations.StartAndStop : Prop :=
  ∀ (p : Packet) (s : State),
    (accepted specStart p s = true → s.chans.length = 4 → ∃ t instant, exec (.start p) s = .next (completed 5 p stOK [] t) ∧
      ∀ c, c < 4 → (chan t c).running = chanOn s true c ∧ (chanOn s true c = true →
        (chan t c).count = 0 ∧ (chan t c).startAt = instant ∧ (chan t c).coef = ((chan s c).loaded.getD (chan s c).coef) ∧
        (chan t c).loaded = none ∧ (chan t c).fsInForce = par s 0x0403 (domainOf s c))) ∧
    (accepted specStop p s = true →
      (pktAt p = true → exec (.stop p) s = .next (completed 6 p stOK []
        (schedule (consume s p) p 6 (cueChan s) (fld (payloadOf p) 0 8) .stop))) ∧
      (pktAt p = false → anyRunning s = false → exec (.stop p) s = .next (completed 6 p stOK [] (consume s p))) ∧
      (∀ n, pktAt p = false → anyRunning s = true → s.md.stopping = some n →
        exec (.stop p) s = .next (completed 6 p stOK (leBytes 8 n) (consume s p))) ∧
      (pktAt p = false → anyRunning s = true → s.md.stopping = none → (∀ c, c < 4 → (chan s c).buf.dropping = none) →
        let n := ordNext s (cueChan s)
        ∃ t, exec (.stop p) s = .next (completed 6 p stOK (leBytes 8 n) t) ∧
          ((∀ c, c < 4 → (chan s c).running = true → stopTarget s n c = ordNext s (domainOf s c)) →
            (∀ c, c < 4 → (chan t c).running = false) ∧ t.pend = [] ∧ t.md.stopping = none ∧
            (∀ c, c < 4 → (chan s c).running = true → domainOf s c = cueChan s → (chan t c).stopOrd = some n)) ∧
          ((∃ c, c < 4 ∧ (chan s c).running = true ∧ domainOf s c = c ∧ ordNext s c < stopTarget s n c) →
            t.md.stopping = some n ∧ t.pend = s.pend ∧
            ∀ c, c < 4 → (chan s c).running = true → (chan t c).running = true ∧
              (domainOf s c = c → (chan t c).stopAt = some (stopTarget s n c)))))

/-- R299 to R303, R305, R306, R309, R311, R321, R322: the oldest fed frame brings what is due into force, then is counted
in every column, or only in its counter while counting is paused or where it touches a gap; palettes, maps and clears
take effect where R305 and R306 say, and a lattice read binds its channel. The model's choices: assumption 28. -/
def Obligations.DensityUnits : Prop :=
  (∀ (u : Fin 4) (s : State), (du s u).queue = [] ∨ stalled s 0x07 u = true → exec (.fedFrame u) s = .next s) ∧
  (∀ (u : Fin 4) (s : State) (f : FedFrame) (rest : List FedFrame), (du s u).queue = f :: rest → stalled s 0x07 u = false →
    let d := duDue { du s u with queue := rest } f.ord
    ∃ t, exec (.fedFrame u) s = .next t ∧ (du t u).queue = rest ∧
      (pausedAt d f.ord = true → (du t u).n = d.n ∧ (du t u).pausedFrames = satU 64 (d.pausedFrames + 1) ∧ (du t u).tainted = true) ∧
      (pausedAt d f.ord = false → bit f.flags 3 = true → (du t u).n = d.n ∧ (du t u).gapFrames = satU 32 (d.gapFrames + 1)) ∧
      (pausedAt d f.ord = false → bit f.flags 3 = false → (du t u).n = d.n + 1 ∧ (du t u).lastOrd = f.ord ∧
        (du t u).sat = (d.sat || bit f.flags 2) ∧
        ((d.n + 1) % par s 0x0B0D u ≠ 0 → (du t u).cells = ((List.range (par s 0x0B02 u)).foldl (fun d c =>
          (duValues s u c f.pw).foldl (fun d v => duValue s u c v d) d) d).cells))) ∧
  (∀ (p : Packet) (s : State),
    let own := ownOf p
    let u := p.inst.toNat
    (accepted specDuPaletteLoad p s = true → exec (.duPaletteLoad p) s = .next (completed 0x0B50 p stOK []
      (setDu (consume s p) u (fun d =>
        if d.active = 0 then { d with palette1 := tputAll d.palette1 (loadEntries own) (fun _ => 0) }
        else { d with palette0 := tputAll d.palette0 (loadEntries own) (fun _ => 0) })))) ∧
    (accepted specDuMapLoad p s = true → exec (.duMapLoad p) s = .next (completed 0x0B53 p stOK []
      (setDu (consume s p) u (fun d => { d with userMap := tputAll d.userMap (loadEntries own) (fun i => i) })))) ∧
    (accepted specDuPaletteSwap p s = true →
      (pktAt p = true → exec (.duPaletteSwap p) s = .next (completed 0x0B51 p stOK []
        (schedule (consume s p) p 0x0B51 (duChan s u) (fld (payloadOf p) 0 8) (.duSwap u)))) ∧
      (pktAt p = false → (du s u).running = true → exec (.duPaletteSwap p) s = .next (completed 0x0B51 p stOK
        (leBytes 8 (appliedOrd s (duChan s u)))
        (setDu (consume s p) u (fun d => { d with swapPend := some (appliedOrd s (duChan s u)) })))) ∧
      (pktAt p = false → (du s u).running = false → exec (.duPaletteSwap p) s = .next (completed 0x0B51 p stOK []
        (setDu (consume s p) u (fun d => { d with swapAtStart := true }))))) ∧
    (accepted specDuClear p s = true →
      (pktAt p = true → exec (.duClear p) s = .next (completed 0x0B52 p stOK []
        (schedule (consume s p) p 0x0B52 (duChan s u) (fld (payloadOf p) 0 8) (.duClear u)))) ∧
      (pktAt p = false → (du s u).running = true → exec (.duClear p) s = .next (completed 0x0B52 p stOK
        (leBytes 8 (appliedOrd s (duChan s u)))
        (setDu (consume s p) u (fun d => { d with clearPend := d.clearPend ++ [appliedOrd s (duChan s u)] })))) ∧
      (pktAt p = false → (du s u).running = false → exec (.duClear p) s = .next (completed 0x0B52 p stOK []
        (setDu (consume s p) u (fun d => { d with cells := [], ovr := false, stl := false, sat := false, lsat := false, n := 0, poisoned := false }))))) ∧
    (accepted specDuLatticeRead p s = true → exec (.duLatticeRead p) s = .next (completed 0x0B54 p stOK []
      (setDu (setDma (consume s p) (fld own 0 1) (fun d => { d with user := 3, owner := u, fromHost := false })) u
        (fun d => { d with reads := d.reads ++ [fld own 0 1] })))))

/-- R313 to R315, R317 to R321: a frame start latches the planes, the background and the CLUTs; the next pixel of the
frame leaves its output composed, or black while blanked, and an underrun blackens the rest of its frame; links train
on HPD, fall on unplug, and are trained again where IRQ_HPD finds them failed; CLUTs load for the next frame, and the
EDID is answered. The model's choices: assumption 30. -/
def Obligations.DisplayOutputs : Prop :=
  (∀ (o : Fin 3) (s : State),
    ((disp s o).running = true → exec (.frameStart o) s = .next (setDisp s o (fun d => { d with
      frames := (d.frames + 1) % 2 ^ 64, aborted := false, scanX := 0, scanY := 0, blanked := decide (1 ≤ s.md.level)
      bg := par s 0x0B26 o, planes := [planeNow s (2 * o), planeNow s (2 * o + 1)], clut := d.clutNext }))) ∧
    ((disp s o).running = false → exec (.frameStart o) s = .next s)) ∧
  (∀ (o : Fin 3) (ws : Option (List W32)) (s : State), (disp s o).running = true → (disp s o).scanY < dispHeight s o → videoOn s o = true →
    let d := disp s o
    (d.blanked = true ∨ d.aborted = true → ∀ poison, exec (.scanInstant o ws poison) s =
      .next (scanStep (emit s (.pixel o d.scanX d.scanY 0)) o)) ∧
    (d.blanked = false → d.aborted = false →
      (∀ l, ws = some l → exec (.scanInstant o ws false) s = .next (scanStep (emit s
        (.pixel o d.scanX d.scanY (packPixel (bpc s o) (composePixel s o d.scanX d.scanY (l.map (·.toNat)) false)))) o)) ∧
      (ws = none → ∀ poison, ∃ t, exec (.scanInstant o ws poison) s = .next t ∧ Output.pixel o d.scanX d.scanY 0 ∈ t.out ∧
        (disp t o).aborted = true ∧ (disp t o).underruns = satU 32 (d.underruns + 1) ∧ (disp t o).underrunSeen = true))) ∧
  (∀ (o : Fin 2) (k : SinkFacts) (s : State),
    let lanes := Nat.min (laneStep k.lanes) (laneStep (bits (par s 0x0B25 o) 2 0))
    let rate := Nat.min (Nat.min k.rate 3) (bits (par s 0x0B25 o) 5 4)
    (fitted s.variant 0x0D o = true → dispPowered s.md.mode = true → (disp s o).hpd = false → lanes ≠ 0 →
      ∃ t, exec (.hpdPlug o k) s = .next t ∧
        t = told (setDisp s o (fun d => { d with hpd := true, trained := true, lanes := lanes, rate := rate })) t) ∧
    ((disp s o).hpd = true → (disp s o).trained = true → ∃ t, exec (.hpdUnplug o) s = .next t ∧
      t = told (setDisp s o (fun d => { d with hpd := false, trained := false, lanes := 0, rate := 0 })) t) ∧
    ((disp s o).hpd = true → lanes ≠ 0 → ∃ t, exec (.irqHpd o false k) s = .next t ∧
      t = told (setDisp s o (fun d => { d with trained := true, lanes := lanes, rate := rate })) t) ∧
    (exec (.irqHpd o true k) s = .next s)) ∧
  (∀ (p : Packet) (edid : List Byte) (s : State),
    (accepted specDispClutLoad p s = true → exec (.dispClutLoad p) s = .next (completed 0x0B55 p stOK []
      (setDisp (consume s p) (p.inst.toNat / 2) (fun d => { d with
        clutNext := lmod d.clutNext (p.inst.toNat % 2) (fun t => tputAll t (loadEntries (ownOf p)) (fun _ => 0)) })))) ∧
    (accepted specDispEdidRead p s = true → exec (.dispEdidRead p edid) s = .next (completed 0x0B56 p stOK (padTo 128 edid) (consume s p))))

/-- R477 to R482: the gauges read give each region the lowest of its factors, and a reading out of bounds fails its gauge;
a poll of a regulator gives its voltage, current and temperature; three silent polls, a fault or a setpoint not
reached freeze it, and its under-voltage warning brings SAFE with cause 3; a warning temperature and a skew of two
adjacent regions, named by the lower, are reported. The model's choices: assumption 53. -/
def Obligations.GaugesAndRegulators : Prop :=
  ∀ s : State, managerUp s = true →
    (∀ factors : List Nat, factors.length = 64 → s.health.failed = [] →
      ∃ t, exec (.gaugeReading factors) s = .next t ∧
        ((∀ f ∈ factors, gaugeBroken f = false) → ∀ q, q < 4 →
          nth t.health.factor q 0 = ((factors.drop (16 * q)).take 16).foldl Nat.min 65536) ∧
        (∀ k, k < 64 → (gaugeBroken (nth factors k 0) = true ↔ k ∈ t.health.failed))) ∧
    (∀ (q : Fin 4) (f : PmbusFacts), f.responded = true → ∃ t, exec (.pmbusPoll q f) s = .next t ∧
      t.health.volts = lmod s.health.volts q (fun _ => f.vout) ∧ t.health.current = lmod s.health.current q (fun _ => f.iout) ∧
      t.health.temps = lmod s.health.temps q (fun _ => f.temp) ∧ t.health.noAnswer = lmod s.health.noAnswer q (fun _ => 0) ∧
      t.health.frozen = (if f.fault then lmod s.health.frozen q (fun _ => true) else s.health.frozen) ∧
      (f.uvWarn = true → s.md.mode ≠ .safe → s.md.transit = none → t.md.safeCause = 3)) ∧
    (∀ (q : Fin 4) (f : PmbusFacts), f.responded = false → ∃ t, exec (.pmbusPoll q f) s = .next t ∧
      t.health.noAnswer = lmod s.health.noAnswer q (fun _ => nth s.health.noAnswer q 0 + 1) ∧ t.health.volts = s.health.volts ∧
      t.health.frozen = (if 2 ≤ nth s.health.noAnswer q 0 then lmod s.health.frozen q (fun _ => true) else s.health.frozen)) ∧
    (∀ q : Fin 4, nth s.health.waiting q false = true →
      exec (.regulationReached q true) s = .next { s with health := { s.health with
        waiting := lmod s.health.waiting q (fun _ => false), oldSet := lmod s.health.oldSet q (fun _ => nth s.health.setpoint q 900) } } ∧
      ∃ t, exec (.regulationReached q false) s = .next t ∧ t.health.frozen = lmod s.health.frozen q (fun _ => true) ∧
        t.health.setpoint = s.health.setpoint) ∧
    (∀ (q : Fin 4) (temp : Int), (10 * par s 0x1113 0 : Int) ≤ temp → ∃ t, exec (.thermalWarn q temp) s = .next t ∧
      (0x1104, q.val) ∈ t.ev.latches ∧ t.health.temps = lmod s.health.temps q (fun _ => temp) ∧ t.health.today.warn = true) ∧
    (∀ (q : Fin 4) (v w : Bool), (q = 3 → exec (.regionSkew q v w) s = .next s) ∧ (q ≠ 3 → v = true ∨ w = true → ∃ t, exec (.regionSkew q v w) s = .next t ∧
      (0x1103, q.val) ∈ t.ev.latches ∧ t.health.today.skew = true ∧ t = told s t)) ∧
    (s.md.everIdle = true → exec .aliveCount s = .next { s with host := { s.host with alive := (s.host.alive + 1) % 2 ^ 64 } })

/-- R9, R492 to R494, R105: a first recoverable error in a unit of the variant joins the queue of units in error, with a
log entry; a second takes the unit offline, or puts the cluster's spare in an engine's place; an error whose recovery
is none is only logged and posted; a fatal one enters SAFE with cause 5; a unit that the variant does not fit has no
errors. The unit being recovered leaves the queue, its entry RESOLVED. The model's choices: assumptions 16 and 53. -/
def Obligations.ErrorsAreLogged : Prop :=
  (∀ (code : BitVec 16) (kind : BitVec 8) (inst : BitVec 16) (detail : W64) (s : State), managerUp s = true →
    let k := kind.toNat
    let i := inst.toNat
    (errUnitFitted s k i = false → exec (.unitErrorDetected code kind inst detail) s = .next s) ∧
    (errUnitFitted s k i = true →
      ((errKinds code.toNat).contains k = true → isOffline s k i = false →
        ((∀ u ∈ s.health.queue, ¬ (u.kind = k ∧ u.inst = i)) → ∃ t seq, exec (.unitErrorDetected code kind inst detail) s = .next t ∧
          t.health.queue = s.health.queue ++ [{ kind := k, inst := i, code := code.toNat, seq := seq }] ∧ t.health.offline = s.health.offline) ∧
        (∀ u, s.health.queue.find? (fun u => decide (u.kind = k) && decide (u.inst = i)) = some u →
          ∃ t, exec (.unitErrorDetected code kind inst detail) s = .next t ∧
            t.health.queue = s.health.queue.filter (fun x => !decide (x = u)) ∧
            (k ≠ 6 ∨ (cluster s (clusterOf i)).spare ≠ 0 → (k, i) ∈ t.health.offline) ∧
            (k = 6 → (cluster s (clusterOf i)).spare = 0 → t.health.offline = s.health.offline ∧
              (eng t i).physical = some (clusterOf i)))) ∧
      (errPlain code.toNat = true → exec (.unitErrorDetected code kind inst detail) s =
        .next (logResolved s code.toNat k i detail.toNat)) ∧
      (code = 0x11F0 ∨ code = 0x11F1 → s.md.mode ≠ .safe → s.md.transit = none → ∃ t, exec (.unitErrorDetected code kind inst detail) s = .next t ∧
        t.md.safeCause = 5 ∧ t.md.transit = some { target := .safe, reason := 2 }))) ∧
  (∀ s : State, s.health.queue = [] → exec .errorRecovery s = .next s) ∧
  (∀ (s : State) (u : ErrUnit) (rest : List ErrUnit), s.health.queue = u :: rest → (∀ x ∈ rest, x.seq ≠ u.seq) →
    ∃ t, exec .errorRecovery s = .next t ∧ t.health.queue = rest ∧ (∀ e ∈ t.health.log, e.seq = u.seq → e.st = 2))

/-- R489 to R491: a powered minute adds its weight to the life used; a day's entry is written to the flash and begins the
next day; HM_AGEING_READ answers the entries of its days. R484: MARGIN_REPLAN, its period, or sixty readings short
start the operation; the work total is the model's free value. The model's choices: assumptions 22 and 53. -/
def Obligations.AgeingAndReplan : Prop :=
  ((∀ (tj : Int) (s : State), s.md.powered = true → exec (.lifeMinute tj) s = .next { s with
      health := { s.health with
        life := s.health.life + (if tj ≤ 1050 then 65536 else Config.lifeWeight tj), minutes := s.health.minutes + 1
        hours := s.health.hours + (if (s.health.minutes + 1) % 60 = 0 then 1 else 0)
        today := { s.health.today with hot := s.health.today.hot + b2n (decide (1050 < tj)) } }
      md := { s.md with tripped := s.md.tripped && decide (1150 ≤ tj) } }) ∧
    (∀ s : State, managerUp s = true → 1440 ≤ s.health.minutes → ∃ t b, exec .ageingEntry s = .next t ∧
      t.health.day = s.health.day + 1 ∧ t.health.minutes = s.health.minutes - 1440 ∧ t.health.today = {} ∧ b.length = 64 ∧
      b.take 4 = leBytes 4 s.health.day ∧
      t.health.ageing = (s.health.ageing ++ [b]).drop (s.health.ageing.length + 1 - 11264) ∧ Output.flashAgeing b ∈ t.out) ∧
    (∀ (p : Packet) (s : State), accepted specHmAgeingRead p s = true →
      let l := s.health.ageing.filter (fun e => decide (fld (ownOf p) 0 4 ≤ fld e 0 4) && decide (fld e 0 4 < fld (ownOf p) 0 4 + fld (ownOf p) 4 1))
      ∃ first, exec (.hmAgeingRead p) s = .next (completed 0x1150 p stOK (leBytes 4 first ++ leBytes 1 l.length ++ zeros 3 ++ l.flatten)
        (consume s p)))) ∧
  (∀ s : State,
      let started := fun (s : State) (tag no : Nat) => { s with
        fresh := s.fresh + 1, nextHandle := s.nextHandle + 1
        ops := s.ops ++ [{ handle := s.nextHandle, opcode := 0x1140, tag := tag, total := Config.free s.fresh % 2 ^ 64
                           work := { args := [0, 0, no, 0] } }] }
      (∀ p : Packet, accepted specMarginReplan p s = true → exec (.marginReplan p) s = .next (completed 0x1140 p stACCEPTED
        (leBytes 4 s.nextHandle) (started (consume s p) p.tag.toNat (fld (ownOf p) 0 1)))) ∧
      ((s.md.mode = .idle ∨ s.md.mode = .analyse ∨ s.md.mode = .record) → s.md.transit = none → liveOp s 0x1140 = none → (liveOps s).length < 16 →
        (par s 0x1110 0 ≠ 0 → exec (.replanAutoStart true) s = .next (started s 0 0)) ∧
        ((∃ n ∈ s.health.lowRuns, 60 ≤ n) → exec (.replanAutoStart false) s = .next
          { started s 0 0 with health := { s.health with lowRuns := [0, 0, 0, 0, 0] } }) ∧
        ((∀ n ∈ s.health.lowRuns, n < 60) → exec (.replanAutoStart false) s = .next s)))

/-- R498, R499, R505, R510, R517, R519, R520, R521: the signs of life between the devices: ALIVE, heartbeats, which tell
what the LEAD has lost, and their loss, a split where one stands without the other, the promotion of an eligible
UNDERSTUDY that has lost both, the link's coming up with roles and terms exchanged, its fall and its loss of lanes.
The model's choices: assumptions 43 and 44. -/
def Obligations.PairLiveness : Prop :=
  ∀ s : State,
    (s.pair.aliveToggling = true → exec .aliveToggle s = .next (emit { s with pair := { s.pair with aliveLevel := !s.pair.aliveLevel } }
      (.alive (!s.pair.aliveLevel)))) ∧
    (managerUp s = true → s.pair.peerAlive = true → ∃ t, exec .peerAliveStopped s = .next t ∧
      t = told { s with pair := { s.pair with peerAlive := false, split := s.pair.split && s.pair.heartbeat
                                              sync := s.pair.sync && !(decide (s.pair.role = 1) && !s.pair.heartbeat) } } t) ∧
    (managerUp s = true → s.pair.heartbeat = true → ∃ t, exec .heartbeatLost s = .next t ∧
      t = told { s with pair := { s.pair with heartbeat := false, split := s.pair.split && s.pair.peerAlive
                                              sync := s.pair.sync && !(decide (s.pair.role = 1) && !s.pair.peerAlive) } } t) ∧
    (managerUp s = true → ∃ t, exec .peerAliveEdge s = .next t ∧ t.pair.peerAlive = true ∧
      (s.pair.heartbeat = false → s.pair.role ≠ 0 → t.pair.split = true ∧ t.pair.sync = false)) ∧
    (s.pair.link = true → linkMode s = true →
      (exec (.heartbeat none) s = .next (emit s (.link 1 [s.pair.role, b2n s.pair.sync, modeCode s.md.mode, b2n (anyRunning s), b2n s.clk.ppsQual, s.pair.lostBy]))) ∧
      (∀ x, x.broken = true → exec (.heartbeat (some x)) s = .next
        { s with pair := { s.pair with errors := satU 32 (s.pair.errors + 1) } }) ∧
      (∀ x, x.broken = false → ∃ t, exec (.heartbeat (some x)) s = .next t ∧ t.pair.heartbeat = true ∧ t.pair.peerRole = x.role ∧ t.pair.peerMode = x.mode ∧
        t.pair.peerRuns = x.running ∧ t.pair.peerPps = x.ppsQual ∧ (s.pair.role = 1 → x.sync = false → t.pair.sync = false) ∧
        (s.pair.role = 2 → s.pair.sync = true → x.role = 1 → x.lost = 3 ∨ x.lost = 4 → t.pair.sync = false ∧ t.pair.lostBy = x.lost) ∧
        (s.pair.peerAlive = false → s.pair.role ≠ 0 → t.pair.split = true ∧ t.pair.sync = false))) ∧
    (eligible s = true → s.pair.peerAlive = false → s.pair.heartbeat = false → ∃ t, exec .promote s = .next t ∧
      t.pair.role = 1 ∧ t.pair.term = s.pair.term + 1 ∧ t.pair.sync = false ∧
      t.pair.takeover = alignUp (ordNext s (cueChan s) + schedLead s (cueChan s)) 65536 ∧ t.pair.shadow = [] ∧
      Output.flashTerm (s.pair.term + 1) ∈ t.out) ∧
    (∀ lanes role term serial, s.pair.link = false → linkMode s = true → lanes = 4 ∨ lanes = 8 →
      let both := s.pair.role = 1 ∧ role = 1
      let mine := s.pair.term < term ∨ (s.pair.term = term ∧ serial < s.serial)
      ∃ t, exec (.pairLinkUp lanes role term serial) s = .next t ∧ t.pair.link = true ∧ t.pair.lanes = lanes ∧
        t.pair.peerTerm = term ∧ t.pair.peerSerial = serial ∧
        (¬ both → t.pair.role = s.pair.role ∧ t.pair.peerRole = role) ∧
        (both → mine → t.pair.role = 2 ∧ t.pair.sync = false ∧ t.pair.outHeld = true) ∧
        (both → ¬ mine → t.pair.role = 1 ∧ t.pair.peerRole = 2)) ∧
    (s.pair.link = true → ∃ t, exec .pairLinkDown s = .next t ∧
      t = told { s with pair := { s.pair with link := false, lanes := 0, peerLead := false } } t) ∧
    (s.pair.link = true → exec .laneDrop s = .next { s with pair := { s.pair with lanes := 4 } })

/-- R509 to R513, R522: what a device takes from its peer: a firing becomes a PAIR item; a forwarded command is executed,
and one that ends otherwise than on the LEAD, or comes too late, ends the synchronisation; a rate step is taken at the
LEAD's ordinal; a LEAD tells its confirmed play offsets, which release what an UNDERSTUDY shadows; an image replaces
the parameters of its classes. The model's choices: assumptions 24, 44 and 46. -/
def Obligations.PairReplication : Prop :=
  ∀ s : State, s.pair.link = true →
    (∀ (sheet : Fin 8) (cue : Fin 16) (ord : Nat), anyRunning s = true → exec (.cueItem sheet cue ord) s = .next { s with cue := { s.cue with
      arriving := s.cue.arriving ++ [{ kind := 8, inst := 16 * sheet.val + cue.val, ord := ord, tests := [2], flags := 32 }] } }) ∧
    (∀ (opcode st : Nat) (p : Packet) (data : Fetched), s.pair.role = 2 → s.pair.sync = true → opcode ≠ 0x1250 →
      (forwardLate p s = true → ∃ t, exec (.config opcode st p data) s = .next t ∧ t.pair.sync = false) ∧
      (∀ st' t, forwardLate p s = false → replicate opcode p data s = some (st', t) →
        (st' = st → exec (.config opcode st p data) s = .next t) ∧
        (st' ≠ st → ∃ t', exec (.config opcode st p data) s = .next t' ∧ t'.pair.sync = false))) ∧
    (∀ (st : Nat) (p : Packet) (data : Fetched), s.pair.role = 2 → anyRunning s = false → exec (.config 0x1250 st p data) s = .next
      { s with pair := { s.pair with aligning := some (fld (payloadOf p) 0 6), started := false, sync := false, lostBy := 0 } }) ∧
    (∀ (u : Fin 16) (down : Bool) (sigma : Nat), s.pair.role = 2 → s.pair.sync = true → capProgress s u ≤ sigma →
      exec (.rateStep u down sigma) s = .next { s with
        reduce := { s.reduce with stack := if down then u.val :: s.reduce.stack else s.reduce.stack.erase u.val }
        caps := lmod s.caps u (fun c => { c with stepPend := some (sigma, if down then (cap s u).step + 1 else (cap s u).step - 1) }) }) ∧
    (s.pair.role = 1 → s.pair.sync = true → ∀ offsets, exec (.journalHead offsets) s = .next
      (emit s (.link 5 ((List.range 16).map (confirmedHere s))))) ∧
    (∀ u off, s.pair.role = 2 → u < 16 → ∃ t, exec (.journalHead [(u, off)]) s = .next t ∧
      t.pair.confirmed = lmod s.pair.confirmed u (Nat.max off) ∧
      t.pair.shadow = s.pair.shadow.filter (fun x => !(decide (x.unit = u) && decide (x.first + x.bytes ≤ off)))) ∧
    (∀ (l : List (Nat × Nat)), imageOpen s = true → ∃ t, exec (.image (.params l)) s = .next t ∧
        t.md = s.md ∧ t.chans = s.chans ∧ t.zooms = s.zooms ∧ t.ops = s.ops ∧
        ∀ k, tget? t.params k = match (l.filter (fun x => imagePar x.1)).reverse.find? (fun x => x.1 = k) with
          | some x => some x.2
          | none => if imagePar k then none else tget? s.params k)

/-- R502, R503, R506 to R508, R514 to R516, R522: alignment measures both means, fixes δ and ends at E synchronised; check
extents are sent by the LEAD, as gathered, at their ordinals and judged by the UNDERSTUDY; a verdict ends a failed
UNDERSTUDY's synchronisation; PAIR_ALIGN and PAIR_RESYNC begin them. The model's choices: assumptions 45 and 57. -/
def Obligations.PairAlignmentAndChecks : Prop :=
  ∀ s : State,
    (∀ mean : Int, s.pair.role ≠ 0 → s.pair.link = true → s.pair.started = true →
      (s.pair.mine = none → s.pair.theirs = none → 16 ≤ s.pair.heard.length → exec (.align true mean) s = .next
        (emit { s with pair := { s.pair with mine := some (meanHeard s) } } (.link 6 [uns 64 (meanHeard s)]))) ∧
      (s.pair.heard.length < 16 → exec (.align true mean) s = .next s) ∧
      (∀ m, s.pair.mine = some m → s.pair.theirs = none → s.pair.e.isSome = true → ∃ t, exec (.align false mean) s = .next t ∧
        t.pair.theirs = some mean ∧ t.pair.offset = (if s.pair.role = 2 then (m - mean) / 2 else (mean - m) / 2))) ∧
    (alignReady s = true → ∃ t, exec .pairAligned s = .next t ∧ t.pair.sync = true ∧ t.pair.aligning = none ∧ t.pair.started = false ∧
      t.pair.e = none ∧ (s.pair.role = 2 → t.pair.outHeld = true)) ∧
    (alignReady s = false → exec .pairAligned s = .next s) ∧
    (∀ (c : Fin 4) (e : CheckFacts), s.pair.link = true → s.pair.role = 1 → s.pair.sync = true → s.pair.checkChan = c.val →
      (chan s c).running = true → s.pair.nextX + 65536 ≤ ordNext s c →
      ∃ t, exec (.checkExtent c s.pair.nextX e) s = .next t ∧ t.pair.nextX = s.pair.nextX + par s 0x1204 0 ∧ t.pair.draft = none ∧
        (∀ w, s.pair.draft = some w → e.poison = false → w.lost = false →
          t.out = s.out ++ [.linkExtent c s.pair.nextX (extentOf { s with pair := t.pair } w)]) ∧
        (∀ w, s.pair.draft = some w → e.poison = true → t.out = s.out ∧ t.pair.skipped = s.pair.skipped + 1) ∧
        (s.pair.draft = none ∨ (∃ w, s.pair.draft = some w ∧ w.lost = true ∧ e.poison = false) →
          t.out = s.out ∧ t.pair.skipped = s.pair.skipped)) ∧
    (∀ (c : Fin 4) (x : Nat) (e : CheckFacts), s.pair.link = true → s.pair.role = 2 →
      (e.poison = true ∨ e.capacity = false ∨ s.pair.sync = false → exec (.checkExtent c x e) s =
        .next { s with pair := { s.pair with skipped := s.pair.skipped + 1 } }) ∧
      (e.poison = false → e.capacity = true → s.pair.sync = true →
        ((∀ d ∈ e.digests, d ∈ checkDigests s c x e) → exec (.checkExtent c x e) s =
          .next { s with pair := { s.pair with checks := s.pair.checks + 1 } }) ∧
        ((∃ d ∈ e.digests, d ∉ checkDigests s c x e) → ∃ t, exec (.checkExtent c x e) s = .next t ∧ t.pair.verdict = true ∧
          (0x1206, c.val) ∈ t.ev.latches ∧ Output.link 8 [] ∈ t.out))) ∧
    (s.pair.link = true → s.pair.role ≠ 0 → s.pair.verdict = true →
      (∃ t, exec (.verdict true true) s = .next t ∧ t = told { s with pair := { s.pair with verdict := false } } t) ∧
      (s.pair.role = 1 → ∃ t, exec (.verdict true false) s = .next t ∧ t.pair.sync = false ∧ t.pair.verdict = false ∧ t.md = s.md) ∧
      (s.pair.role = 2 → par s 0x1205 0 = 1 → s.md.mode = .analyse ∨ s.md.mode = .record → s.md.transit = none →
        ∃ t, exec (.verdict true false) s = .next t ∧ t.pair.sync = false ∧ t.md.safeCause = 5 ∧
          t.md.transit = some { target := .safe, reason := 2 })) ∧
    (∀ p : Packet, accepted specPairAlign p s = true → exec (.pairAlign p) s = .next
      (let t := completed 0x1250 p stOK [] (emit { consume s p with pair := { s.pair with
          aligning := some (fld (ownOf p) 0 6), started := false, sync := false, lostBy := 0 } } (.linkConfig 0x1250 p))
       { t with fresh := t.fresh + 1 })) ∧
    (∀ p : Packet, accepted specPairResync p s = true → ∃ t, exec (.pairResync p) s = .next (completed 0x1240 p stACCEPTED (leBytes 4 s.nextHandle) t) ∧
      t = { consume s p with
        nextHandle := s.nextHandle + 1, tus := t.tus
        ops := s.ops ++ [{ handle := s.nextHandle, opcode := 0x1240, tag := p.tag.toNat, total := 4 }]
        pair := { s.pair with sync := false, aligning := none, started := false, e := none } })

/-- R148, R552, R555 to R562: SELF_TEST and FW_UPDATE start their operations, and a test powers the PLLs that it needs,
and the update's target is erased first; FW_COMMIT ends a trial and raises the anti-rollback counter; a challenge
gives a fresh nonce, an unlock spends it; keys are generated, imported and erased in their slots alone, and the import
key is answered. The nonce and the key ID are the model's free values. The model's choices: assumptions 12 and 51. -/
def Obligations.SecurityCommands : Prop :=
  ∀ (p : Packet) (s : State),
    let own := ownOf p
    let keys := fun (k id : Nat) (s : State) => { s with sec := { s.sec with keys := lmod s.sec.keys k (fun _ => id) } }
    (accepted specSelfTest p s = true → ∃ t, exec (.selfTest p) s = .next (completed 0x1340 p stACCEPTED (leBytes 4 s.nextHandle) t) ∧
      t = { consume s p with
        nextHandle := s.nextHandle + 1
        ops := s.ops ++ [{ handle := s.nextHandle, opcode := 0x1340, tag := p.tag.toNat, total := fld own 0 4
                           work := { units := setBits 11 (fld own 0 4) } }]
        clk := { s.clk with plls := t.clk.plls } } ∧
      ∀ k, k < s.clk.plls.length → (nth t.clk.plls k {}).powered = pllWanted t s.md.mode k) ∧
    (accepted specFwUpdate p s = true → exec (.fwUpdate p) s = .next (completed 0x1440 p stACCEPTED (leBytes 4 s.nextHandle)
      (emit { setDma (consume s p) (fld own 12 1) (fun d => { d with user := 5, owner := s.nextHandle, fromHost := true }) with
        nextHandle := s.nextHandle + 1
        ops := s.ops ++ [{ handle := s.nextHandle, opcode := 0x1440, tag := p.tag.toNat, total := cdiv (fld own 8 4) 65536
                           work := { args := [updateSlot s, fld own 12 1, fld own 13 1] } }]
        sec := { s.sec with slots := lmod s.sec.slots (updateSlot s) (fun _ => none) } } (.flashErase (updateSlot s))))) ∧
    (accepted specFwCommit p s = true → ∃ t, exec (.fwCommit p) s = .next (completed 0x1450 p stOK [] t) ∧
      t = { consume s p with sec := t.sec, out := t.out } ∧ t.sec.trial = false ∧ t.sec.counter = Nat.max s.sec.counter s.sec.rollback ∧
      (∀ i, s.sec.counter < i → i ≤ s.sec.rollback → Output.fuse i ∈ t.out) ∧
      (s.sec.trial = true → Output.flashSelect s.sec.selected false (s.sec.selSeq + 1) ∈ t.out)) ∧
    (accepted specDbgChallenge p s = true → ∃ nonce, nonce.length = 16 ∧ exec (.dbgChallenge p) s = .next
      (completed 0x1420 p stOK nonce { consume s p with fresh := s.fresh + 1, sec := { s.sec with nonce := some nonce } })) ∧
    (accepted specDbgUnlock p s = true → ∃ t, exec (.dbgUnlock p) s = .next (completed 0x1421 p stOK [] t) ∧
      t = told { consume s p with sec := { s.sec with nonce := none, debug := some (fld own 24 4) } } t) ∧
    (tokenDenied p s = true → ∃ t, exec (.dbgUnlock p) s = .next t ∧ t.sec.nonce = none ∧ t.sec.debug = s.sec.debug) ∧
    (accepted specKeyGenerate p s = true → ∃ id, id ≠ 0 ∧ exec (.keyGenerate p) s = .next (completed 0x1430 p stOK []
      (keys (fld own 0 1) id { consume s p with fresh := s.fresh + 1 }))) ∧
    (accepted specKeyImport p s = true → blobDenied s (own.drop 8) = false → exec (.keyImport p) s = .next (completed 0x1431 p stOK []
      (keys (fld own 0 1) (fld own 24 8) (consume s p)))) ∧
    (accepted specKeyImport p s = true → blobDenied s (own.drop 8) = true → exec (.keyImport p) s = .next (completed 0x1431 p stDENIED [] (consume s p))) ∧
    (accepted specKeyErase p s = true → exec (.keyErase p) s = .next (completed 0x1432 p stOK [] (keys (fld own 0 1) 0 (consume s p)))) ∧
    (accepted specKeyImportPubkey p s = true → exec (.keyImportPubkey p) s = .next (completed 0x1433 p stOK
      (leBytes 8 s.serial ++ padTo 96 (Config.importKey.take 96)) (consume s p)))
end

