-- ==== Sys2Proof/Laws/Tab.lean ====
section
/-! SUPPORT. Laws of tables, lists by index, and memories: read after write, and the canonical form. -/
namespace Sys2Proof.Machine

/-! ### Tables -/

theorem tget?_tput_same {α : Type} (t : Tab α) (k : Nat) (v : α) : tget? (tput t k v) k = some v := by
  induction t with
  | nil => simp [tput, tget?]
  | cons h t ih =>
    obtain ⟨j, w⟩ := h
    simp only [tput]
    split
    · simp [tget?, show j ≠ k by omega, ih]
    · split <;> simp [tget?]

theorem tget?_tput_other {α : Type} (t : Tab α) {k i : Nat} (v : α) (h : i ≠ k) : tget? (tput t k v) i = tget? t i := by
  induction t with
  | nil => simp [tput, tget?, Ne.symm h]
  | cons x t ih =>
    obtain ⟨j, w⟩ := x
    simp only [tput]
    split
    · simp [tget?, ih]
    · split
      · subst_vars; simp [tget?, Ne.symm h]
      · simp [tget?, Ne.symm h]

@[simp] theorem tgetD_tput_same {α : Type} (t : Tab α) (k : Nat) (v d : α) : tgetD (tput t k v) k d = v := by
  simp [tgetD, tget?_tput_same]

theorem tgetD_tput_other {α : Type} (t : Tab α) {k i : Nat} (v d : α) (h : i ≠ k) : tgetD (tput t k v) i d = tgetD t i d := by
  simp [tgetD, tget?_tput_other t v h]

@[simp] theorem tgetD_tmod_same {α : Type} (t : Tab α) (k : Nat) (d : α) (f : α → α) :
    tgetD (tmod t k d f) k d = f (tgetD t k d) := by
  simp [tmod]

theorem tgetD_tmod_other {α : Type} (t : Tab α) {k i : Nat} (d : α) (f : α → α) (h : i ≠ k) :
    tgetD (tmod t k d f) i d = tgetD t i d := by
  simp [tmod, tgetD_tput_other t _ d h]

@[simp] theorem tput_tput_same {α : Type} (t : Tab α) (k : Nat) (v w : α) : tput (tput t k v) k w = tput t k w := by
  induction t with
  | nil => simp [tput]
  | cons x t ih =>
    obtain ⟨j, u⟩ := x
    simp only [tput]
    split
    · simp [tput, *]
    · split <;> simp [tput]

/-! ### Lists by index -/

@[simp] theorem lmod_length {α : Type} (l : List α) (i : Nat) (f : α → α) : (lmod l i f).length = l.length := by
  induction l generalizing i with
  | nil => rfl
  | cons x l ih => cases i <;> simp [lmod, ih]

theorem getElem?_lmod {α : Type} (l : List α) (i j : Nat) (f : α → α) :
    (lmod l i f)[j]? = if i = j then l[j]?.map f else l[j]? := by
  induction l generalizing i j with
  | nil => simp [lmod]
  | cons x l ih =>
    cases i with
    | zero => cases j <;> simp [lmod]
    | succ i => cases j with
      | zero => simp [lmod]
      | succ j => simp [lmod, ih]

theorem nth_lmod_same {α : Type} (l : List α) (i : Nat) (f : α → α) (d : α) (h : i < l.length) :
    nth (lmod l i f) i d = f (nth l i d) := by
  unfold nth
  rw [getElem?_lmod, if_pos rfl, List.getElem?_eq_getElem h]
  rfl

theorem nth_lmod_other {α : Type} (l : List α) {i j : Nat} (f : α → α) (d : α) (h : j ≠ i) :
    nth (lmod l i f) j d = nth l j d := by
  simp [nth, getElem?_lmod, Ne.symm h]

/-! ### Memories -/

theorem memGet_memPut_other (m : Memory) {a i : Nat} (b : Byte) (h : i ≠ a) : memGet (memPut m a b) i = memGet m i := by
  induction m with
  | nil => unfold memPut; split <;> simp [memGet, Ne.symm h]
  | cons x m ih =>
    obtain ⟨j, c⟩ := x
    simp only [memPut]
    split
    · simp [memGet, ih]
    · split
      · subst_vars; split <;> simp [memGet, Ne.symm h]
      · split <;> simp [memGet, Ne.symm h]

theorem memGet_below (l : Nat) (m : Memory) (h : Memory.wfFrom (some l) m = true) : memGet m l = 0 := by
  suffices H : ∀ k, l ≤ k → Memory.wfFrom (some k) m = true → memGet m l = 0 from H l (Nat.le_refl l) h
  clear h
  induction m with
  | nil => intros; rfl
  | cons x m ih =>
    obtain ⟨j, c⟩ := x
    intro k hk hw
    simp only [Memory.wfFrom, Bool.and_eq_true, decide_eq_true_eq] at hw
    simp only [memGet, show j ≠ l by omega, if_false]
    exact ih j (by omega) hw.2

theorem memGet_memPut_same (m : Memory) (a : Nat) (b : Byte) (h : m.wf = true) : memGet (memPut m a b) a = b := by
  unfold Memory.wf at h
  generalize none = lo at h
  induction m generalizing lo with
  | nil => unfold memPut; split <;> simp_all [memGet]
  | cons x m ih =>
    obtain ⟨j, c⟩ := x
    simp only [Memory.wfFrom, Bool.and_eq_true, decide_eq_true_eq] at h
    simp only [memPut]
    split
    · simp only [memGet, show j ≠ a by omega, if_false]; exact ih _ h.2
    · split
      · subst_vars
        split
        · next hb => rw [hb]; exact memGet_below _ _ h.2
        · simp [memGet]
      · split
        · next hb =>
          subst hb
          simp only [memGet, if_neg (show ¬ j = a by omega)]
          refine memGet_below a m ?_
          cases m with
          | nil => rfl
          | cons y m =>
            obtain ⟨i, e⟩ := y
            have := h.2
            simp only [Memory.wfFrom, Bool.and_eq_true, decide_eq_true_eq] at this ⊢
            exact ⟨⟨by omega, this.1.2⟩, this.2⟩
        · simp [memGet]

theorem memPut_wfFrom (m : Memory) (a : Nat) (b : Byte) (lo : Option Nat)
    (hl : ∀ l, lo = some l → l < a) (h : Memory.wfFrom lo m = true) : Memory.wfFrom lo (memPut m a b) = true := by
  induction m generalizing lo with
  | nil =>
    unfold memPut
    split
    · exact h
    · next hb =>
      simp only [Memory.wfFrom, Bool.and_eq_true, decide_eq_true_eq]
      refine ⟨⟨?_, hb⟩, trivial⟩
      cases lo with
      | none => rfl
      | some l => simpa using hl l rfl
  | cons x m ih =>
    obtain ⟨j, c⟩ := x
    simp only [Memory.wfFrom, Bool.and_eq_true, decide_eq_true_eq] at h
    simp only [memPut]
    split
    · simp only [Memory.wfFrom, Bool.and_eq_true, decide_eq_true_eq]
      exact ⟨h.1, ih (some j) (by simpa using ‹j < a›) h.2⟩
    · split
      · subst_vars
        split
        · cases m with
          | nil => cases lo <;> rfl
          | cons y m =>
            obtain ⟨i, e⟩ := y
            have h2 := h.2
            simp only [Memory.wfFrom, Bool.and_eq_true, decide_eq_true_eq] at h2 ⊢
            cases lo with
            | none => exact ⟨⟨rfl, h2.1.2⟩, h2.2⟩
            | some l => exact ⟨⟨by have := hl l rfl; simp; omega, h2.1.2⟩, h2.2⟩
        · next hb =>
          simp only [Memory.wfFrom, Bool.and_eq_true, decide_eq_true_eq]
          exact ⟨⟨h.1.1, hb⟩, h.2⟩
      · split
        · simp only [Memory.wfFrom, Bool.and_eq_true, decide_eq_true_eq]; exact h
        · next hb =>
          simp only [Memory.wfFrom, Bool.and_eq_true, decide_eq_true_eq]
          refine ⟨⟨?_, hb⟩, ⟨by omega, h.1.2⟩, h.2⟩
          cases lo with
          | none => rfl
          | some l => simpa using hl l rfl

/-- Writing a byte keeps the canonical form. -/
theorem memPut_wf (m : Memory) (a : Nat) (b : Byte) (h : m.wf = true) : (memPut m a b).wf = true :=
  memPut_wfFrom m a b none (by simp) h

/-- Writing bytes keeps the canonical form. -/
theorem memWrite_wf (bs : List Byte) (m : Memory) (a : Nat) (h : m.wf = true) : (memWrite m a bs).wf = true := by
  induction bs generalizing m a with
  | nil => exact h
  | cons b bs ih => exact ih _ _ (memPut_wf m a b h)

/-- A byte outside the bytes written reads as before. -/
theorem memGet_memWrite_other (bs : List Byte) (m : Memory) (a i : Nat) (h : i < a ∨ a + bs.length ≤ i) :
    memGet (memWrite m a bs) i = memGet m i := by
  induction bs generalizing m a with
  | nil => rfl
  | cons b bs ih =>
    simp only [List.length_cons] at h
    simp only [memWrite]
    rw [ih _ _ (by omega), memGet_memPut_other _ _ (by omega)]

/-- A byte written reads as it was written. -/
theorem memGet_memWrite_same (bs : List Byte) (m : Memory) (a i : Nat) (hm : m.wf = true) (h : i < bs.length) :
    memGet (memWrite m a bs) (a + i) = bs[i] := by
  induction bs generalizing m a i with
  | nil => simp at h
  | cons b bs ih =>
    simp only [memWrite]
    cases i with
    | zero => rw [memGet_memWrite_other _ _ _ _ (by omega)]; simpa using memGet_memPut_same m a b hm
    | succ i =>
      have := ih (memPut m a b) (a + 1) i (memPut_wf m a b hm) (by simpa using h)
      rw [show a + (i + 1) = a + 1 + i by omega]
      simpa using this

theorem filter_wfFrom (p : Host.Cell → Bool) (m : Memory) (lo : Option Nat) (h : Memory.wfFrom lo m = true) :
    Memory.wfFrom lo (m.filter p) = true := by
  induction m generalizing lo with
  | nil => simpa using h
  | cons x m ih =>
    obtain ⟨j, c⟩ := x
    simp only [Memory.wfFrom, Bool.and_eq_true, decide_eq_true_eq] at h
    by_cases hp : p (j, c) = true
    · simp only [List.filter_cons, hp, if_true, Memory.wfFrom, Bool.and_eq_true, decide_eq_true_eq]
      exact ⟨h.1, ih (some j) h.2⟩
    · simp only [List.filter_cons, hp, Bool.false_eq_true, if_false]
      refine ih lo ?_
      cases m with
      | nil => cases lo <;> rfl
      | cons y m =>
        obtain ⟨i, e⟩ := y
        have h2 := h.2
        simp only [Memory.wfFrom, Bool.and_eq_true, decide_eq_true_eq] at h2 ⊢
        cases lo with
        | none => exact ⟨⟨rfl, h2.1.2⟩, h2.2⟩
        | some l => exact ⟨⟨by have := h.1.1; simp at this ⊢; omega, h2.1.2⟩, h2.2⟩

/-- Clearing a range keeps the canonical form. -/
theorem memClear_wf (m : Memory) (lo hi : Nat) (h : m.wf = true) : (memClear m lo hi).wf = true :=
  filter_wfFrom _ m none h

@[simp] theorem memRead_length (m : Memory) (a n : Nat) : (memRead m a n).length = n := by
  induction n generalizing a with
  | zero => rfl
  | succ n ih => simp [memRead, ih]

end Sys2Proof.Machine
end

