-- ==== Sys2Proof/Laws/Engines.lean ====
section
/-! SUPPORT. Laws of the engines: reading one after changing it, an empty slot has no effect, and the whole effect of a
bundle that a quiet engine issues. -/
namespace Sys2Proof.Machine

@[simp] theorem eng_setEng (s : State) (e : Nat) (f : Engine → Engine) : eng (setEng s e f) e = f (eng s e) := by
  simp [eng, setEng]

theorem eng_setEng_other (s : State) {e i : Nat} (f : Engine → Engine) (h : i ≠ e) : eng (setEng s e f) i = eng s i := by
  simp [eng, setEng, tgetD_tmod_other _ _ _ h]

/-- Two changes of one engine that agree on what it holds are one. -/
theorem setEng_congr (s : State) (e : Nat) (f g : Engine → Engine) (h : f (eng s e) = g (eng s e)) : setEng s e f = setEng s e g := by
  simp only [setEng, tmod]; unfold eng at h; rw [h]

@[simp] theorem setEng_setEng (s : State) (e : Nat) (f g : Engine → Engine) :
    setEng (setEng s e f) e g = setEng s e (fun x => g (f x)) := by
  simp [setEng, tmod]

@[simp] theorem setEng_id (s : State) (e : Nat) (f g : Engine → Engine) (h : g (f (eng s e)) = f (eng s e)) :
    setEng (setEng s e f) e g = setEng s e f := by
  rw [setEng_setEng]; exact setEng_congr _ _ _ _ h

theorem quiet_iff (x : Engine) : quiet x = true ↔ x.loads = [] ∧ x.chain = [] ∧ x.branch = none ∧ x.rep = none := by
  simp [quiet, and_assoc]

theorem issues_iff (s : State) (e w : Nat) : issues s e w = true ↔
    canIssue s e = true ∧ bundleAt s e = w ∧ worst (bundleFaults s e w) = none := by
  simp [issues, and_assoc]

theorem canIssue_stall (s : State) (e : Nat) (h : canIssue s e = true) : (eng s e).stall = .none := by
  simp [canIssue] at h; exact h.1.1.2

/-! ### Results that land -/

theorem landDue_nothing (x : Engine) (h1 : x.loads = []) (h2 : x.chain = []) : landDue x = x := by
  cases x; simp_all [landDue]

theorem landAll_nothing (x : Engine) (h1 : x.loads = []) (h2 : x.chain = []) : landAll x = x := by
  cases x; simp_all [landAll]

/-! ### Slots without an operation -/

theorem arSlot_empty (x0 x : Engine) (w : Nat) (h : arOp w = 0) : arSlot x0 w x = x := by
  simp [arSlot, arDo, h, putRegs]

theorem lsSlot_empty (x0 x : Engine) (w : Nat) (bs : List Byte) (h : lsOp w = 0) : lsSlot x0 w bs x = x := by
  simp [lsSlot, h, lsIsLoad, lsIsStore, lsIsComm]

theorem amSlot_empty (x0 x : Engine) (w : Nat) (h : lsOp w = 0) : amSlot x0 w x = x := by
  simp [amSlot, h]

theorem adSlot_empty (x0 x : Engine) (w : Nat) (h : adOp w = 0) : adSlot x0 w x = x := by
  simp [adSlot, h]

theorem ctDo_empty (x0 x : Engine) (e w cyc : Nat) (h : ctOp w = 0) : ctDo x0 x e w cyc = x := by
  simp [ctDo, h]

theorem branchOf_empty (x : Engine) (w : Nat) (h : ctOp w = 0) : branchOf x w = none := by
  simp [branchOf, h]

/-! ### The sequencing of a quiet engine -/

theorem advance_straight (x : Engine) (w : Nat) (br : Option BranchKind) (hb : x.branch = none) (hr : x.rep = none)
    (h : bFmt w = 1 → lgOp w ≠ 1) :
    advance x w br = { x with pc := (x.pc + 1) % 4096, branch := br.map (fun k => (k, 2)) } := by
  have hc : (decide (bFmt w = 1) && decide (lgOp w = 1)) = false := by simpa using h
  unfold advance
  simp [hc, hb, hr]

theorem takeBranch_none (s : State) (e : Nat) (h : (eng s e).branch = none) : takeBranch s e = s := by
  simp [takeBranch, h]

theorem takeBranch_later (s : State) (e n : Nat) (k : BranchKind) (h : (eng s e).branch = some (k, n + 1)) : takeBranch s e = s := by
  simp [takeBranch, h]

theorem counted_retired (x : Engine) (h : x.stall = .none) : { counted x with pc := (x.pc + 1) % 4096 } = retired x := by
  cases x; simp_all [counted, retired]

theorem lsSlot_branch (x0 x : Engine) (w : Nat) (bs : List Byte) : (lsSlot x0 w bs x).branch = x.branch := by
  unfold lsSlot loadDone; dsimp only; repeat' split <;> try rfl

theorem lsSlot_rep (x0 x : Engine) (w : Nat) (bs : List Byte) : (lsSlot x0 w bs x).rep = x.rep := by
  unfold lsSlot loadDone; dsimp only; repeat' split <;> try rfl

theorem lsSlot_pc (x0 x : Engine) (w : Nat) (bs : List Byte) : (lsSlot x0 w bs x).pc = x.pc := by
  unfold lsSlot loadDone; dsimp only; repeat' split <;> try rfl

theorem amSlot_seq (x0 x : Engine) (w : Nat) :
    (amSlot x0 w x).branch = x.branch ∧ (amSlot x0 w x).rep = x.rep ∧ (amSlot x0 w x).pc = x.pc := by
  unfold amSlot putA; repeat' split
  all_goals exact ⟨rfl, rfl, rfl⟩

theorem adSlot_seq (x0 x : Engine) (w : Nat) :
    (adSlot x0 w x).branch = x.branch ∧ (adSlot x0 w x).rep = x.rep ∧ (adSlot x0 w x).pc = x.pc := by
  unfold adSlot putA; repeat' split
  all_goals exact ⟨rfl, rfl, rfl⟩

theorem ctDo_seq (x0 x : Engine) (e w cyc : Nat) :
    (ctDo x0 x e w cyc).branch = x.branch ∧ (ctDo x0 x e w cyc).rep = x.rep ∧ (ctDo x0 x e w cyc).pc = x.pc := by
  unfold ctDo putSpecial putA putD; repeat' split
  all_goals exact ⟨rfl, rfl, rfl⟩

/-- The registers after a NORMAL bundle on a quiet engine. -/
theorem bundleRegs_quiet (x : Engine) (e w : Nat) (bs : List Byte) (cyc : Nat) (hq : quiet x = true) (h0 : bFmt w = 0) :
    bundleRegs x e w bs cyc =
      { ctDo x (adSlot x w (amSlot x w (lsSlot x w bs (arSlot x w (counted x))))) e w cyc with
        pc := (x.pc + 1) % 4096, branch := (branchOf x w).map (fun k => (k, 2)) } := by
  obtain ⟨h1, h2, h3, h4⟩ := (quiet_iff x).1 hq
  unfold bundleRegs
  rw [landDue_nothing _ (by simpa [counted] using h1) (by simpa [counted] using h2)]
  rw [advance_straight _ _ _ ?_ ?_ (by simp [h0])]
  · congr 1
    rw [(ctDo_seq _ _ _ _ _).2.2, (adSlot_seq _ _ _).2.2, (amSlot_seq _ _ _).2.2, lsSlot_pc]; simp [arSlot, counted]
  · rw [(ctDo_seq _ _ _ _ _).1, (adSlot_seq _ _ _).1, (amSlot_seq _ _ _).1, lsSlot_branch]; simpa [arSlot, counted] using h3
  · rw [(ctDo_seq _ _ _ _ _).2.1, (adSlot_seq _ _ _).2.1, (amSlot_seq _ _ _).2.1, lsSlot_rep]; simpa [arSlot, counted] using h4

theorem branch_held (o : Option BranchKind) (s : State) (e : Nat) (h : (eng s e).branch = o.map (fun k => (k, 2))) :
    takeBranch s e = s := by
  cases o with
  | none => exact takeBranch_none s e (by simpa using h)
  | some k => exact takeBranch_later s e 1 k (by simpa using h)

/-- A bundle that issues without a fault and does not wait for data takes effect. -/
theorem issue_now (s : State) (e w : Nat) (h : issues s e w = true) (h0 : bFmt w = 0) (hg : lsOp w ≠ 0x0D)
    (hd : lsIsLoad (lsOp w) = true → regionAt s (effAddr (eng s e) w) = some 0) :
    issue s e = execute s e w (if lsIsLoad (lsOp w) then engRead s e (effAddr (eng s e) w) (lsSize (lsOp w)) else []) := by
  obtain ⟨hc, hb, hw⟩ := (issues_iff _ _ _).1 h
  unfold issue
  have hwait : waitsForData s e w = false := by
    unfold waitsForData
    simp only [h0, if_neg hg]
    cases hl : lsIsLoad (lsOp w) with
    | false => simp
    | true => simp [hd hl]
  simp only [hb, hw, hwait, complete, h0, hg]
  simp

/-- The effect of a NORMAL bundle on a quiet engine, when its control slot neither stops nor moves the engine. -/
theorem execute_quiet (s : State) (e w : Nat) (bs : List Byte) (hq : quiet (eng s e) = true) (h0 : bFmt w = 0)
    (hc : ctOp w ≠ 0x0C ∧ ctOp w ≠ 0x0D ∧ ctOp w ≠ 0x0E ∧ ctOp w ≠ 0x15) (hp : lsOp w ≠ 0x0E) (hy : readsCyc w = false) :
    execute s e w bs = setEng s e (fun x =>
      { ctDo x (adSlot x w (amSlot x w (lsSlot x w bs (arSlot x w (counted x))))) e w 0 with
        pc := (x.pc + 1) % 4096, branch := (branchOf x w).map (fun k => (k, 2)) }) := by
  have hk := bundleRegs_quiet (eng s e) e w bs 0 hq h0
  have ha : ∀ t, bundleActs t e w (effAddr (eng s e) w) (dPair (eng s e) (ctD w)) = t := by
    intro t
    unfold bundleActs
    obtain ⟨c1, c2, c3, c4⟩ := hc
    rw [if_neg (by simp [hp])]
    split <;> first | rfl | contradiction
  unfold execute
  simp only [hy, h0, ha]
  simp
  rw [branch_held (branchOf (eng s e) w)]
  · exact setEng_congr _ _ _ _ hk
  · simp [hk]

end Sys2Proof.Machine
end

