-- ==== Sys2Proof/Laws/Told.lean ====
section
/-! SUPPORT. What events, error-log entries, vectors and free values change, once for every operation that makes them:
all of them stay within `told`, and such changes compose. -/
namespace Sys2Proof.Machine

/-- t differs from s by what `told` names alone. -/
def Told (s t : State) : Prop := t = told s t

theorem told_told (s t u : State) : told (told s t) u = told s u := rfl

theorem Told.refl (s : State) : Told s s := rfl

theorem Told.trans {s t u : State} (h : Told s t) (k : Told t u) : Told s u := by
  unfold Told at *; rw [h, told_told] at k; exact k

theorem Told.ite {s t u : State} {p : Prop} [Decidable p] (h : Told s t) (k : Told s u) : Told s (if p then t else u) := by
  split <;> assumption

/-- A fold of operations that stay within `told` stays within it. -/
theorem Told.foldl {α : Type} (f : State → α → State) (h : ∀ s a, Told s (f s a)) : ∀ (l : List α) (s : State), Told s (l.foldl f s)
  | [], s => Told.refl s
  | a :: l, s => (h s a).trans (Told.foldl f h l (f s a))

theorem told_emit (s : State) (o : Output) : Told s (emit s o) := rfl

theorem told_emitHost (s : State) (o : Output) : Told s (emitHost s o) := by unfold emitHost; split <;> rfl

theorem told_takeFree (s : State) : Told s (takeFree s).2 := rfl

theorem told_fireVector (s : State) (v : Nat) : Told s (fireVector s v) := by
  unfold fireVector; repeat' split
  all_goals rfl

theorem told_fireHeld (s : State) (v : Nat) : Told s (fireHeld s v) := by
  unfold fireHeld; dsimp only; split
  · rfl
  · split
    · exact told_fireVector s v
    · refine Told.trans (told_fireVector s v) ?_; rfl

theorem told_setSticky (s : State) (n : Nat) : Told s (setSticky s n) := by
  unfold setSticky; dsimp only; split
  · exact Told.trans (t := { s with host := { s.host with sticky := s.host.sticky ||| (1 <<< n) } }) rfl (told_fireVector _ 3)
  · rfl

theorem told_writeMirror (s : State) : Told s (writeMirror s) := by
  unfold writeMirror; exact (Told.refl s).ite (told_emitHost _ _)

/-! ### Events -/

theorem told_writeRingEvent (s : State) (e : Event) : Told s (writeRingEvent s e) := by
  unfold writeRingEvent; dsimp only
  refine Told.trans ?_ (told_fireHeld _ 1)
  refine Told.trans ?_ (told_writeMirror _)
  refine Told.trans (told_emitHost s (.event (s.ring.evtBase + 32 * s.ring.evtTail) { seq := (s.ring.seq + 1) % 65536, ev := e })) ?_
  rfl

theorem told_reportRingLoss (s : State) : Told s (reportRingLoss s) := by
  unfold reportRingLoss
  refine Told.ite (Told.trans ?_ (told_writeRingEvent _ _)) (Told.refl s)
  rfl

theorem told_postRing (s : State) (e : Event) : Told s (postRing s e) := by
  unfold postRing setRingStatus; dsimp only
  refine Told.ite (Told.refl s) ((told_reportRingLoss s).trans (Told.ite (told_writeRingEvent _ _) ?_))
  refine Told.trans (Told.ite ?_ (Told.trans ?_ (told_fireVector _ 2))) (told_setSticky _ 0) <;> rfl

/-- A mailbox takes or loses an event within `toldMbx`. -/
theorem postMbx_within (b : Mailbox) (m : Mbx) (e : Event) :
    let c := if (reportMbxLoss m b).fifo.length < 256 then pushFifo (reportMbxLoss m b) e
      else { reportMbxLoss m b with evtLostFlag := true, lost := satU 32 ((reportMbxLoss m b).lost + 1), lossPending := true }
    c = toldMbx b c := by
  intro c; unfold c; unfold reportMbxLoss pushFifo; repeat' split
  all_goals rfl

theorem told_postMbx (s : State) (m : Mbx) (e : Event) : Told s (postMbx s m e) := by
  unfold postMbx
  refine Told.ite (Told.refl s) ?_
  cases m
  · have h := postMbx_within s.spi .spi e
    unfold Told told setMbx; dsimp only at *; rw [← h]; rfl
  · have h := postMbx_within s.smbus .smbus e
    unfold Told told setMbx; dsimp only at *; rw [← h]; rfl

theorem told_post (s : State) (e : Event) : Told s (post s e) := by
  unfold post
  exact Told.ite (Told.refl s) (((told_postRing s e).trans (told_postMbx _ .spi e)).trans (told_postMbx _ .smbus e))

theorem told_noteSticky (s : State) (code : Nat) : Told s (noteSticky s code) := by
  unfold noteSticky; split
  · exact told_setSticky s _
  · exact Told.refl s

theorem told_mkEvent (s : State) (code inst detail : Nat) (ord : Option (Nat × Nat)) (num : Nat) :
    Told s (mkEvent s code inst detail ord num).2 := by
  unfold mkEvent; dsimp only; split
  · split
    · exact told_noteSticky s code
    · refine Told.trans (told_noteSticky s code) ?_; rfl
  · exact told_noteSticky s code

theorem told_raise (s : State) (code inst detail : Nat) (ord : Option (Nat × Nat)) (num : Nat) :
    Told s (raise s code inst detail ord num) :=
  (told_mkEvent s code inst detail ord num).trans (told_post _ _)

theorem told_raiseLatched (s : State) (code inst detail : Nat) (ord : Option (Nat × Nat)) :
    Told s (raiseLatched s code inst detail ord) := by
  unfold raiseLatched
  refine Told.ite (Told.refl s) (Told.trans ?_ (told_raise _ _ _ _ _ _))
  rfl

theorem told_postWindowed (s : State) (e : Event) (acc : Nat → Nat) : Told s (postWindowed s e acc) := by
  unfold postWindowed; dsimp only
  refine Told.ite ?_ (Told.trans (told_post s e) ?_) <;> rfl

theorem told_raiseWindowed (s : State) (code inst detail : Nat) (ord : Option (Nat × Nat)) (acc : Nat → Nat) (num : Nat) :
    Told s (raiseWindowed s code inst detail ord acc num) :=
  (told_mkEvent s code inst detail ord num).trans (told_postWindowed _ _ _)

/-! ### The error log -/

theorem told_logEntry (s : State) (code kind inst detail : Nat) (fatal : Bool) (st : Nat) (rep : Bool) :
    Told s (logEntry s code kind inst detail fatal st rep) := by
  unfold logEntry; dsimp only
  refine Told.ite ?_ ?_
  · rfl
  refine Told.trans ?_ (told_raise _ _ _ _ _ _)
  repeat' split
  all_goals first | rfl | (refine Told.trans ?_ (told_setSticky _ 6); rfl)

theorem told_logResolved (s : State) (code kind inst detail : Nat) : Told s (logResolved s code kind inst detail) :=
  told_logEntry _ _ _ _ _ _ _ _

end Sys2Proof.Machine
end

