-- ==== Sys2Proof/Laws/EngineFrames.lean ====
section
/-! SUPPORT. What a bundle of an engine can reach at all: every shared operation of the engines stays within `engTold`. -/
namespace Sys2Proof.Machine

/-- t differs from s by what `engTold` names alone. -/
def EngTold (s t : State) : Prop := t = engTold s t

theorem engTold_engTold (s t u : State) : engTold (engTold s t) u = engTold s u := rfl

theorem EngTold.refl (s : State) : EngTold s s := rfl

theorem EngTold.trans {s t u : State} (h : EngTold s t) (k : EngTold t u) : EngTold s u := by
  unfold EngTold at *; rw [h, engTold_engTold] at k; exact k

theorem EngTold.ite {s t u : State} {p : Prop} [Decidable p] (h : EngTold s t) (k : EngTold s u) :
    EngTold s (if p then t else u) := by split <;> assumption

theorem EngTold.foldl {α : Type} (f : State → α → State) (h : ∀ s a, EngTold s (f s a)) :
    ∀ (l : List α) (s : State), EngTold s (l.foldl f s)
  | [], s => EngTold.refl s
  | a :: l, s => (h s a).trans (EngTold.foldl f h l (f s a))

/-- What stays within `told` stays within `engTold`. -/
theorem Told.engTold {s t : State} (h : Told s t) : EngTold s t := by
  unfold EngTold Told at *; rw [h]; rfl

theorem engTold_setEng (s : State) (e : Nat) (f : Engine → Engine) : EngTold s (setEng s e f) := rfl

theorem engTold_setCluster (s : State) (c : Nat) (f : Cluster → Cluster) : EngTold s (setCluster s c f) := rfl

/-! ### Caches and HBM -/

theorem engTold_putLine (s : State) (c l v : Nat) : EngTold s (putLine s c l v) := by
  unfold putLine; rfl

theorem engTold_dropLine (s : State) (c l : Nat) : EngTold s (dropLine s c l) := by
  unfold dropLine; rfl

theorem engTold_lineRead (s : State) (c l : Nat) : EngTold s (lineRead s c l) := by
  unfold lineRead; dsimp only
  refine EngTold.ite (EngTold.refl s) (EngTold.ite (engTold_putLine _ _ _ _) ?_)
  exact (EngTold.foldl _ (fun s h => engTold_putLine s h l 1) _ s).trans (engTold_putLine _ _ _ _)

theorem engTold_lineWrite (s : State) (c l : Nat) : EngTold s (lineWrite s c l) := by
  unfold lineWrite; dsimp only
  exact (EngTold.foldl _ (fun s h => engTold_dropLine s h l) _ s).trans (engTold_putLine _ _ _ _)

/-- A byte written of HBM changes poison at most. -/
theorem patchByte_within (h : HbmUnit) (a : Nat) :
    patchByte h a = { h with poisoned := (patchByte h a).poisoned, patched := (patchByte h a).patched } := by
  unfold patchByte; dsimp only; repeat' split
  all_goals rfl

theorem patchBytes_within (a : Nat) : ∀ (l : List Nat) (h : HbmUnit),
    let k := l.foldl (fun h i => patchByte h (a + i)) h
    k = { h with poisoned := k.poisoned, patched := k.patched }
  | [], h => rfl
  | i :: l, h => by
    have k := patchBytes_within a l (patchByte h (a + i))
    have q := patchByte_within h (a + i)
    simp only [List.foldl_cons] at *
    rw [k]; rw [q]

theorem engTold_hbmWrite (s : State) (a : Nat) (bs : List Byte) : EngTold s (hbmWrite s a bs) := by
  unfold hbmWrite; dsimp only
  rw [patchBytes_within a (List.range bs.length) s.hbm]; rfl

theorem engTold_writeAt (s : State) (e a : Nat) (bs : List Byte) : EngTold s (writeAt s e a bs) := by
  unfold writeAt; split
  · rfl
  · rfl
  · dsimp only
    refine EngTold.trans ?_ (engTold_hbmWrite _ _ _)
    exact (engTold_lineWrite s _ _).trans (EngTold.ite (EngTold.refl _) (engTold_lineWrite _ _ _))
  · exact EngTold.refl s

/-! ### Store buffers -/

theorem engTold_pushItem (s : State) (u : Nat) (j : CapItem) : EngTold s (pushItem s u j) := rfl

theorem engTold_pushMail (s : State) (c b v : Nat) : EngTold s (pushMail s c b v) := by
  unfold pushMail; dsimp only
  refine EngTold.trans (engTold_setCluster s c _) (EngTold.ite ?_ (EngTold.refl _))
  exact EngTold.foldl _ (fun s e => engTold_setEng s e _) _ _

theorem engTold_closeProduct (s : State) (e ord : Nat) : EngTold s (closeProduct s e ord) := by
  unfold closeProduct; dsimp only
  refine EngTold.trans ?_ (EngTold.foldl _ (fun s u => engTold_pushItem s u _) _ _)
  rfl

theorem engTold_storeOut (s : State) (e : Nat) (x : StoreEnt) : EngTold s (storeOut s e x) := by
  unfold storeOut; dsimp only
  repeat' split
  · exact (engTold_writeAt s e _ _).trans (engTold_setEng _ e _)
  · exact engTold_writeAt s e _ _
  · exact engTold_pushMail s _ _ _
  · exact engTold_setEng s e _
  · exact engTold_closeProduct s e _
  · exact EngTold.foldl _ (fun s i => EngTold.ite (engTold_setEng s _ _) (EngTold.refl s)) _ _
  · exact EngTold.refl s
  · exact engTold_writeAt s e _ _

/-! ### Epochs and spares -/

theorem engTold_advanceEpoch (s : State) (c : Nat) : EngTold s (advanceEpoch s c) := by
  unfold advanceEpoch; dsimp only
  refine EngTold.trans ?_ (EngTold.foldl _ (fun s e => EngTold.ite (EngTold.refl s) (engTold_setEng s e _)) _ _)
  rfl

theorem engTold_substitute (s : State) (e : Nat) : EngTold s (substitute s e) := by
  unfold substitute; dsimp only
  refine EngTold.ite (EngTold.refl s) ?_
  exact (((engTold_setCluster s _ _).trans (engTold_setEng _ e _)).trans (engTold_advanceEpoch _ _)).trans
    (told_raise _ _ _ _ _ _).engTold

theorem engTold_restState (s : State) (e : Nat) (st : EngState) : EngTold s (restState s e st) := by
  unfold restState; dsimp only
  exact EngTold.ite ((engTold_setEng s e _).trans (engTold_substitute _ e)) (engTold_setEng s e _)

/-! ### Draining -/

theorem engTold_drainHead (s : State) (e : Nat) : EngTold s (drainHead s e) := by
  unfold drainHead; split
  · exact EngTold.refl s
  · dsimp only
    refine EngTold.ite ?_ (EngTold.refl s)
    have h := (engTold_setEng s e (fun y => { y with buf := ‹List StoreEnt› })).trans (engTold_storeOut _ e ‹StoreEnt›)
    exact EngTold.ite (EngTold.ite (h.trans (engTold_restState _ e _)) (h.trans (engTold_setEng _ e _))) h

theorem engTold_drainAll (s : State) (e : Nat) : EngTold s (drainAll s e) :=
  EngTold.foldl _ (fun s _ => engTold_drainHead s e) _ s

/-! ### Stops -/

theorem engTold_stopEngine (s : State) (e : Nat) (st : EngState) : EngTold s (stopEngine s e st) := by
  unfold stopEngine
  exact ((engTold_setEng s e landAll).trans (engTold_drainAll _ e)).trans (engTold_restState _ e st)

theorem engTold_haltEngine (s : State) (e : Nat) : EngTold s (haltEngine s e) := by
  unfold haltEngine; dsimp only
  have h := (engTold_setEng s e landAll).trans (engTold_drainAll _ e)
  exact EngTold.ite (h.trans (engTold_restState _ e _)) (h.trans (engTold_setEng _ e _))

theorem engTold_takeBranch (s : State) (e : Nat) : EngTold s (takeBranch s e) := by
  unfold takeBranch; split
  · dsimp only
    split
    · exact (engTold_setEng s e _).trans (engTold_setEng _ e _)
    · exact (engTold_setEng s e _).trans (engTold_setEng _ e _)
    · exact (engTold_setEng s e _).trans (engTold_setEng _ e _)
    · exact (engTold_setEng s e _).trans (engTold_haltEngine _ e)
  · exact EngTold.refl s

theorem engTold_safePoint (s : State) (e : Nat) : EngTold s (safePoint s e) := by
  unfold safePoint; dsimp only
  refine EngTold.ite (EngTold.refl s) ?_
  have h := (engTold_setEng s e landAll).trans (engTold_drainAll _ e)
  have k := EngTold.trans (h.trans (EngTold.ite (p := (eng (drainAll (setEng s e landAll) e) e).pauseSubst = true)
    (engTold_substitute _ e) (EngTold.refl _))) (engTold_setEng _ e (fun x => { x with pauseSubst := false }))
  exact EngTold.ite (k.trans (engTold_setEng _ e _)) k

theorem engTold_fireWake (s : State) (b : Nat) (t : Option Nat) : EngTold s (fireWake s b t) := by
  unfold fireWake noteWake beginWake; dsimp only; repeat' split
  all_goals rfl

theorem engTold_engineEvent (s : State) (e code ord : Nat) : EngTold s (engineEvent s e code ord) := by
  unfold engineEvent; dsimp only
  have h : EngTold s (if running s (cueChan s) then { s with cue := { s.cue with arriving := s.cue.arriving ++
      [{ kind := 0x06, inst := code, ord, tests := [2] }] } } else s) := by split <;> rfl
  exact EngTold.ite (h.trans (engTold_fireWake _ 3 none)) h

/-! ### Bundles -/

theorem engTold_gatherDo (s : State) (e w : Nat) : EngTold s (gatherDo s e w).1 := by
  unfold gatherDo
  generalize gatherLeft (eng s e) w = l
  have h : ∀ (l : List Nat) (acc : State × Option EngFault), EngTold acc.1 (l.foldl (fun (acc : State × Option EngFault) i =>
      match acc.2 with
      | some _ => acc
      | none =>
        match elementFault acc.1 e w i with
        | some f => (acc.1, some f)
        | none =>
          let v := leNat (engRead acc.1 e (gatherAddr acc.1 e w i) 4)
          (setEng acc.1 e (fun x => { putD x [(lsD w + i, v)] with gmask := x.gmask ||| (1 <<< i) }), none)) acc).1 := by
    intro l; induction l with
    | nil => intro acc; exact EngTold.refl _
    | cons i l ih =>
      intro acc; rw [List.foldl_cons]
      refine EngTold.trans ?_ (ih _)
      split
      · exact EngTold.refl _
      · split
        · exact EngTold.refl _
        · exact engTold_setEng _ e _
  exact h l (s, none)

theorem engTold_bundleActs (s : State) (e w ea ev : Nat) : EngTold s (bundleActs s e w ea ev) := by
  unfold bundleActs; dsimp only
  have h : EngTold s (if lsOp w = 0x0E && decide (regionAt s ea = some 3) then
      lineRead s (clusterOf e) ((ea - 0x2000000000) / 64) else s) := EngTold.ite (engTold_lineRead _ _ _) (EngTold.refl s)
  split
  · exact h.trans (engTold_safePoint _ e)
  · exact h.trans (engTold_setEng _ e _)
  · exact h.trans (engTold_engineEvent _ e _ _)
  · exact h.trans (engTold_setEng _ e _)
  · exact h

theorem engTold_execute (s : State) (e w : Nat) (bs : List Byte) : EngTold s (execute s e w bs) := by
  unfold execute; dsimp only
  have h : EngTold s (if readsCyc w then takeFree s else (0, s)).2 := by split <;> rfl
  refine EngTold.ite ?_ ?_
  · exact (h.trans (engTold_setEng _ e _)).trans (engTold_takeBranch _ e)
  · exact ((h.trans (engTold_setEng _ e _)).trans (engTold_bundleActs _ e _ _ _)).trans (engTold_takeBranch _ e)

theorem engTold_takeException (s : State) (e w : Nat) (f : EngFault) : EngTold s (takeException s e w f) := by
  unfold takeException; dsimp only
  repeat' split
  all_goals first | exact engTold_setEng s e _ | exact (engTold_setEng s e _).trans (told_raise _ _ _ _ _ _).engTold

theorem engTold_complete (s : State) (e : Nat) (bs : List Byte) : EngTold s (complete s e bs) := by
  unfold complete; dsimp only; split
  · have h := engTold_gatherDo s e (bundleAt s e)
    split
    · rename_i k; rw [k] at h; exact h.trans (engTold_takeException _ e _ _)
    · rename_i k; rw [k] at h; exact h.trans (engTold_execute _ e _ _)
  · exact engTold_execute s e _ bs

theorem engTold_issue (s : State) (e : Nat) : EngTold s (issue s e) := by
  unfold issue; dsimp only; split
  · exact engTold_takeException s e _ _
  · exact EngTold.ite (engTold_setEng s e _) (engTold_complete s e _)

theorem engTold_issueIf (s : State) (e : Nat) (m : Nat → Bool) : EngTold s (issueIf s e m) :=
  EngTold.ite (engTold_issue s e) (EngTold.refl s)

end Sys2Proof.Machine
end

