-- ==== Sys2Proof/Laws/Packets.lean ====
section
/-! SUPPORT. What each step in the life of a packet does, once for every command: it stays where it is, fails its frame or a
check, or is consumed, executed, copied and completed; and what each of these changes. -/
namespace Sys2Proof.Machine

/-- A packet that cannot be read from its source now has no effect. -/
theorem runPacket_unreadable {c : CmdSpec} {run : State → Packet → Nat → List Byte → Option Nat → Ran} {p : Packet} {s : State}
    (h : readable s c.opcode p = false) : runPacket c run p s = s := by simp [runPacket, h]

/-- An accepted packet is consumed, executed on its own payload, and completed with what execution answers. -/
theorem runPacket_accepted {c : CmdSpec} {run : State → Packet → Nat → List Byte → Option Nat → Ran} {p : Packet} {s : State}
    (h : accepted c p s = true) :
    runPacket c run p s =
      let r := run (consume s p) p p.inst.toNat (ownOf p) (if pktAt p then some (fld (payloadOf p) 0 8) else none)
      completed c.opcode p r.1 r.2.1 r.2.2 := by
  unfold accepted at h
  simp only [Bool.and_eq_true, Option.isNone_iff_eq_none] at h
  obtain ⟨⟨hr, hf⟩, hc⟩ := h
  simp only [runPacket, hr, hf, hc, Bool.not_true, Bool.false_eq_true, ite_false]
  rfl

/-- A packet that fails a check is consumed and completed with that check's status; where the check is the hardware fault of
the sample path, the fault is answered, and nothing else happens. -/
theorem runPacket_refused {c : CmdSpec} {run : State → Packet → Nat → List Byte → Option Nat → Ran} {p : Packet} {s : State} {k st : Nat}
    (hr : readable s c.opcode p = true) (hf : frameCheck c.opcode p = none) (hc : checks true c (consume s p) p = some (k, st)) :
    runPacket c run p s = reply (smpAnswered (consume s p) st) c.opcode p st
      (c.fail (consume s p) p.inst.toNat (if pktAt p then (payloadOf p).drop 8 else payloadOf p) k st) := by
  simp [runPacket, hr, hf, hc]

/-- A status other than HW_FAULT leaves the sample path as it is. -/
theorem smpAnswered_other {s : State} {st : Nat} (h : st ≠ stHW_FAULT) : smpAnswered s st = s := by simp [smpAnswered, h]

/-- Consuming moves the turn and CMD_HEAD alone. -/
theorem consume_eq (s : State) (p : Packet) :
    consume s p = { s with ring := { s.ring with turn := nextTurn p.src, cmdHead := (consume s p).ring.cmdHead } } := rfl

/-- A packet of a mailbox passes the turn on and moves nothing else. -/
theorem consume_mailbox {s : State} {p : Packet} (h : p.src ≠ .ring) :
    consume s p = { s with ring := { s.ring with turn := nextTurn p.src } } := by simp [consume, h]

/-- A LEAD's copy for the UNDERSTUDY is all that forwarding adds. -/
theorem forward_cases (s : State) (opcode : Nat) (p : Packet) (own : List Byte) (st : Nat) (out : List Byte) :
    forward s opcode p own st out = s ∨ ∃ q, forward s opcode p own st out = emit s (.linkConfig opcode q) := by
  unfold forward; dsimp only; split
  · right; split
    · exact ⟨_, rfl⟩
    · exact ⟨_, rfl⟩
  · exact .inl rfl

/-- A reply to a mailbox fills RPL_BUF, unless it is quiet, and clears BUSY. -/
theorem reply_mailbox {s : State} {opcode : Nat} {p : Packet} {st : Nat} {out : List Byte} {m : Mbx} (h : srcMbx p.src = some m) :
    reply s opcode p st out = setMbx s m (fun b =>
      if pktNoReply p && decide (st = stOK) then { b with busy := false }
      else { b with busy := false, rplReady := true, rplBuf := replyBytes opcode st p out }) := by
  simp [reply, h]

/-- A reply that is not to be posted leaves everything as it is. -/
theorem reply_quiet {s : State} {opcode : Nat} {p : Packet} {out : List Byte} (h : p.src = .ring) (q : pktNoReply p = true) :
    reply s opcode p stOK out = s := by simp [reply, h, srcMbx, q]

/-- A scheduled change waits behind those accepted before it, and nothing else changes. -/
theorem schedule_eq (s : State) (p : Packet) (opcode chan ord : Nat) (act : PendAct) :
    schedule s p opcode chan ord act = { s with pend := s.pend ++ [⟨chan, ord, p.tag.toNat, opcode, p.inst.toNat, act⟩] } := rfl

end Sys2Proof.Machine
end

