-- ==== Sys2Proof/Laws/State.lean ====
section
/-! SUPPORT. What each update of one part of the state does to every field, so that no proof unfolds a record update. -/
namespace Sys2Proof.Machine

variable (s : State)

/-! ### `setPar` -/

@[simp] theorem setPar_pending (i j v : Nat) : (setPar s i j v).pending = s.pending := rfl
@[simp] theorem setPar_variant (i j v : Nat) : (setPar s i j v).variant = s.variant := rfl
@[simp] theorem setPar_die (i j v : Nat) : (setPar s i j v).die = s.die := rfl
@[simp] theorem setPar_serial (i j v : Nat) : (setPar s i j v).serial = s.serial := rfl
@[simp] theorem setPar_mgmtAddr (i j v : Nat) : (setPar s i j v).mgmtAddr = s.mgmtAddr := rfl
@[simp] theorem setPar_ring (i j v : Nat) : (setPar s i j v).ring = s.ring := rfl
@[simp] theorem setPar_spi (i j v : Nat) : (setPar s i j v).spi = s.spi := rfl
@[simp] theorem setPar_smbus (i j v : Nat) : (setPar s i j v).smbus = s.smbus := rfl
@[simp] theorem setPar_ev (i j v : Nat) : (setPar s i j v).ev = s.ev := rfl
@[simp] theorem setPar_params (i j v : Nat) : (setPar s i j v).params = tput s.params (parKey i j) v := rfl
@[simp] theorem setPar_pend (i j v : Nat) : (setPar s i j v).pend = s.pend := rfl
@[simp] theorem setPar_cued (i j v : Nat) : (setPar s i j v).cued = s.cued := rfl
@[simp] theorem setPar_unplayed (i j v : Nat) : (setPar s i j v).unplayed = s.unplayed := rfl
@[simp] theorem setPar_ops (i j v : Nat) : (setPar s i j v).ops = s.ops := rfl
@[simp] theorem setPar_nextHandle (i j v : Nat) : (setPar s i j v).nextHandle = s.nextHandle := rfl
@[simp] theorem setPar_md (i j v : Nat) : (setPar s i j v).md = s.md := rfl
@[simp] theorem setPar_chans (i j v : Nat) : (setPar s i j v).chans = s.chans := rfl
@[simp] theorem setPar_clk (i j v : Nat) : (setPar s i j v).clk = s.clk := rfl
@[simp] theorem setPar_gates (i j v : Nat) : (setPar s i j v).gates = s.gates := rfl
@[simp] theorem setPar_zooms (i j v : Nat) : (setPar s i j v).zooms = s.zooms := rfl
@[simp] theorem setPar_streams (i j v : Nat) : (setPar s i j v).streams = s.streams := rfl
@[simp] theorem setPar_tus (i j v : Nat) : (setPar s i j v).tus = s.tus := rfl
@[simp] theorem setPar_cue (i j v : Nat) : (setPar s i j v).cue = s.cue := rfl
@[simp] theorem setPar_caps (i j v : Nat) : (setPar s i j v).caps = s.caps := rfl
@[simp] theorem setPar_store (i j v : Nat) : (setPar s i j v).store = s.store := rfl
@[simp] theorem setPar_reduce (i j v : Nat) : (setPar s i j v).reduce = s.reduce := rfl
@[simp] theorem setPar_dus (i j v : Nat) : (setPar s i j v).dus = s.dus := rfl
@[simp] theorem setPar_disps (i j v : Nat) : (setPar s i j v).disps = s.disps := rfl
@[simp] theorem setPar_engines (i j v : Nat) : (setPar s i j v).engines = s.engines := rfl
@[simp] theorem setPar_clusters (i j v : Nat) : (setPar s i j v).clusters = s.clusters := rfl
@[simp] theorem setPar_hbm (i j v : Nat) : (setPar s i j v).hbm = s.hbm := rfl
@[simp] theorem setPar_host (i j v : Nat) : (setPar s i j v).host = s.host := rfl
@[simp] theorem setPar_aux (i j v : Nat) : (setPar s i j v).aux = s.aux := rfl
@[simp] theorem setPar_cmps (i j v : Nat) : (setPar s i j v).cmps = s.cmps := rfl
@[simp] theorem setPar_pdac (i j v : Nat) : (setPar s i j v).pdac = s.pdac := rfl
@[simp] theorem setPar_tiu (i j v : Nat) : (setPar s i j v).tiu = s.tiu := rfl
@[simp] theorem setPar_health (i j v : Nat) : (setPar s i j v).health = s.health := rfl
@[simp] theorem setPar_saved (i j v : Nat) : (setPar s i j v).saved = s.saved := rfl
@[simp] theorem setPar_pair (i j v : Nat) : (setPar s i j v).pair = s.pair := rfl
@[simp] theorem setPar_tap (i j v : Nat) : (setPar s i j v).tap = s.tap := rfl
@[simp] theorem setPar_sec (i j v : Nat) : (setPar s i j v).sec = s.sec := rfl
@[simp] theorem setPar_fresh (i j v : Nat) : (setPar s i j v).fresh = s.fresh := rfl
@[simp] theorem setPar_out (i j v : Nat) : (setPar s i j v).out = s.out := rfl

/-! ### `setMd` -/

@[simp] theorem setMd_pending (f : ModeUnit → ModeUnit) : (setMd s f).pending = s.pending := rfl
@[simp] theorem setMd_variant (f : ModeUnit → ModeUnit) : (setMd s f).variant = s.variant := rfl
@[simp] theorem setMd_die (f : ModeUnit → ModeUnit) : (setMd s f).die = s.die := rfl
@[simp] theorem setMd_serial (f : ModeUnit → ModeUnit) : (setMd s f).serial = s.serial := rfl
@[simp] theorem setMd_mgmtAddr (f : ModeUnit → ModeUnit) : (setMd s f).mgmtAddr = s.mgmtAddr := rfl
@[simp] theorem setMd_ring (f : ModeUnit → ModeUnit) : (setMd s f).ring = s.ring := rfl
@[simp] theorem setMd_spi (f : ModeUnit → ModeUnit) : (setMd s f).spi = s.spi := rfl
@[simp] theorem setMd_smbus (f : ModeUnit → ModeUnit) : (setMd s f).smbus = s.smbus := rfl
@[simp] theorem setMd_ev (f : ModeUnit → ModeUnit) : (setMd s f).ev = s.ev := rfl
@[simp] theorem setMd_params (f : ModeUnit → ModeUnit) : (setMd s f).params = s.params := rfl
@[simp] theorem setMd_pend (f : ModeUnit → ModeUnit) : (setMd s f).pend = s.pend := rfl
@[simp] theorem setMd_cued (f : ModeUnit → ModeUnit) : (setMd s f).cued = s.cued := rfl
@[simp] theorem setMd_unplayed (f : ModeUnit → ModeUnit) : (setMd s f).unplayed = s.unplayed := rfl
@[simp] theorem setMd_ops (f : ModeUnit → ModeUnit) : (setMd s f).ops = s.ops := rfl
@[simp] theorem setMd_nextHandle (f : ModeUnit → ModeUnit) : (setMd s f).nextHandle = s.nextHandle := rfl
@[simp] theorem setMd_md (f : ModeUnit → ModeUnit) : (setMd s f).md = f s.md := rfl
@[simp] theorem setMd_chans (f : ModeUnit → ModeUnit) : (setMd s f).chans = s.chans := rfl
@[simp] theorem setMd_clk (f : ModeUnit → ModeUnit) : (setMd s f).clk = s.clk := rfl
@[simp] theorem setMd_gates (f : ModeUnit → ModeUnit) : (setMd s f).gates = s.gates := rfl
@[simp] theorem setMd_zooms (f : ModeUnit → ModeUnit) : (setMd s f).zooms = s.zooms := rfl
@[simp] theorem setMd_streams (f : ModeUnit → ModeUnit) : (setMd s f).streams = s.streams := rfl
@[simp] theorem setMd_tus (f : ModeUnit → ModeUnit) : (setMd s f).tus = s.tus := rfl
@[simp] theorem setMd_cue (f : ModeUnit → ModeUnit) : (setMd s f).cue = s.cue := rfl
@[simp] theorem setMd_caps (f : ModeUnit → ModeUnit) : (setMd s f).caps = s.caps := rfl
@[simp] theorem setMd_store (f : ModeUnit → ModeUnit) : (setMd s f).store = s.store := rfl
@[simp] theorem setMd_reduce (f : ModeUnit → ModeUnit) : (setMd s f).reduce = s.reduce := rfl
@[simp] theorem setMd_dus (f : ModeUnit → ModeUnit) : (setMd s f).dus = s.dus := rfl
@[simp] theorem setMd_disps (f : ModeUnit → ModeUnit) : (setMd s f).disps = s.disps := rfl
@[simp] theorem setMd_engines (f : ModeUnit → ModeUnit) : (setMd s f).engines = s.engines := rfl
@[simp] theorem setMd_clusters (f : ModeUnit → ModeUnit) : (setMd s f).clusters = s.clusters := rfl
@[simp] theorem setMd_hbm (f : ModeUnit → ModeUnit) : (setMd s f).hbm = s.hbm := rfl
@[simp] theorem setMd_host (f : ModeUnit → ModeUnit) : (setMd s f).host = s.host := rfl
@[simp] theorem setMd_aux (f : ModeUnit → ModeUnit) : (setMd s f).aux = s.aux := rfl
@[simp] theorem setMd_cmps (f : ModeUnit → ModeUnit) : (setMd s f).cmps = s.cmps := rfl
@[simp] theorem setMd_pdac (f : ModeUnit → ModeUnit) : (setMd s f).pdac = s.pdac := rfl
@[simp] theorem setMd_tiu (f : ModeUnit → ModeUnit) : (setMd s f).tiu = s.tiu := rfl
@[simp] theorem setMd_health (f : ModeUnit → ModeUnit) : (setMd s f).health = s.health := rfl
@[simp] theorem setMd_saved (f : ModeUnit → ModeUnit) : (setMd s f).saved = s.saved := rfl
@[simp] theorem setMd_pair (f : ModeUnit → ModeUnit) : (setMd s f).pair = s.pair := rfl
@[simp] theorem setMd_tap (f : ModeUnit → ModeUnit) : (setMd s f).tap = s.tap := rfl
@[simp] theorem setMd_sec (f : ModeUnit → ModeUnit) : (setMd s f).sec = s.sec := rfl
@[simp] theorem setMd_fresh (f : ModeUnit → ModeUnit) : (setMd s f).fresh = s.fresh := rfl
@[simp] theorem setMd_out (f : ModeUnit → ModeUnit) : (setMd s f).out = s.out := rfl

/-! ### `setOp` -/

@[simp] theorem setOp_pending (h : Nat) (f : LongOp → LongOp) : (setOp s h f).pending = s.pending := rfl
@[simp] theorem setOp_variant (h : Nat) (f : LongOp → LongOp) : (setOp s h f).variant = s.variant := rfl
@[simp] theorem setOp_die (h : Nat) (f : LongOp → LongOp) : (setOp s h f).die = s.die := rfl
@[simp] theorem setOp_serial (h : Nat) (f : LongOp → LongOp) : (setOp s h f).serial = s.serial := rfl
@[simp] theorem setOp_mgmtAddr (h : Nat) (f : LongOp → LongOp) : (setOp s h f).mgmtAddr = s.mgmtAddr := rfl
@[simp] theorem setOp_ring (h : Nat) (f : LongOp → LongOp) : (setOp s h f).ring = s.ring := rfl
@[simp] theorem setOp_spi (h : Nat) (f : LongOp → LongOp) : (setOp s h f).spi = s.spi := rfl
@[simp] theorem setOp_smbus (h : Nat) (f : LongOp → LongOp) : (setOp s h f).smbus = s.smbus := rfl
@[simp] theorem setOp_ev (h : Nat) (f : LongOp → LongOp) : (setOp s h f).ev = s.ev := rfl
@[simp] theorem setOp_params (h : Nat) (f : LongOp → LongOp) : (setOp s h f).params = s.params := rfl
@[simp] theorem setOp_pend (h : Nat) (f : LongOp → LongOp) : (setOp s h f).pend = s.pend := rfl
@[simp] theorem setOp_cued (h : Nat) (f : LongOp → LongOp) : (setOp s h f).cued = s.cued := rfl
@[simp] theorem setOp_unplayed (h : Nat) (f : LongOp → LongOp) : (setOp s h f).unplayed = s.unplayed := rfl
@[simp] theorem setOp_ops (h : Nat) (f : LongOp → LongOp) : (setOp s h f).ops = s.ops.map (fun o => if o.handle = h then f o else o) := rfl
@[simp] theorem setOp_nextHandle (h : Nat) (f : LongOp → LongOp) : (setOp s h f).nextHandle = s.nextHandle := rfl
@[simp] theorem setOp_md (h : Nat) (f : LongOp → LongOp) : (setOp s h f).md = s.md := rfl
@[simp] theorem setOp_chans (h : Nat) (f : LongOp → LongOp) : (setOp s h f).chans = s.chans := rfl
@[simp] theorem setOp_clk (h : Nat) (f : LongOp → LongOp) : (setOp s h f).clk = s.clk := rfl
@[simp] theorem setOp_gates (h : Nat) (f : LongOp → LongOp) : (setOp s h f).gates = s.gates := rfl
@[simp] theorem setOp_zooms (h : Nat) (f : LongOp → LongOp) : (setOp s h f).zooms = s.zooms := rfl
@[simp] theorem setOp_streams (h : Nat) (f : LongOp → LongOp) : (setOp s h f).streams = s.streams := rfl
@[simp] theorem setOp_tus (h : Nat) (f : LongOp → LongOp) : (setOp s h f).tus = s.tus := rfl
@[simp] theorem setOp_cue (h : Nat) (f : LongOp → LongOp) : (setOp s h f).cue = s.cue := rfl
@[simp] theorem setOp_caps (h : Nat) (f : LongOp → LongOp) : (setOp s h f).caps = s.caps := rfl
@[simp] theorem setOp_store (h : Nat) (f : LongOp → LongOp) : (setOp s h f).store = s.store := rfl
@[simp] theorem setOp_reduce (h : Nat) (f : LongOp → LongOp) : (setOp s h f).reduce = s.reduce := rfl
@[simp] theorem setOp_dus (h : Nat) (f : LongOp → LongOp) : (setOp s h f).dus = s.dus := rfl
@[simp] theorem setOp_disps (h : Nat) (f : LongOp → LongOp) : (setOp s h f).disps = s.disps := rfl
@[simp] theorem setOp_engines (h : Nat) (f : LongOp → LongOp) : (setOp s h f).engines = s.engines := rfl
@[simp] theorem setOp_clusters (h : Nat) (f : LongOp → LongOp) : (setOp s h f).clusters = s.clusters := rfl
@[simp] theorem setOp_hbm (h : Nat) (f : LongOp → LongOp) : (setOp s h f).hbm = s.hbm := rfl
@[simp] theorem setOp_host (h : Nat) (f : LongOp → LongOp) : (setOp s h f).host = s.host := rfl
@[simp] theorem setOp_aux (h : Nat) (f : LongOp → LongOp) : (setOp s h f).aux = s.aux := rfl
@[simp] theorem setOp_cmps (h : Nat) (f : LongOp → LongOp) : (setOp s h f).cmps = s.cmps := rfl
@[simp] theorem setOp_pdac (h : Nat) (f : LongOp → LongOp) : (setOp s h f).pdac = s.pdac := rfl
@[simp] theorem setOp_tiu (h : Nat) (f : LongOp → LongOp) : (setOp s h f).tiu = s.tiu := rfl
@[simp] theorem setOp_health (h : Nat) (f : LongOp → LongOp) : (setOp s h f).health = s.health := rfl
@[simp] theorem setOp_saved (h : Nat) (f : LongOp → LongOp) : (setOp s h f).saved = s.saved := rfl
@[simp] theorem setOp_pair (h : Nat) (f : LongOp → LongOp) : (setOp s h f).pair = s.pair := rfl
@[simp] theorem setOp_tap (h : Nat) (f : LongOp → LongOp) : (setOp s h f).tap = s.tap := rfl
@[simp] theorem setOp_sec (h : Nat) (f : LongOp → LongOp) : (setOp s h f).sec = s.sec := rfl
@[simp] theorem setOp_fresh (h : Nat) (f : LongOp → LongOp) : (setOp s h f).fresh = s.fresh := rfl
@[simp] theorem setOp_out (h : Nat) (f : LongOp → LongOp) : (setOp s h f).out = s.out := rfl

/-! ### `setChan` -/

@[simp] theorem setChan_pending (i : Nat) (f : Channel → Channel) : (setChan s i f).pending = s.pending := rfl
@[simp] theorem setChan_variant (i : Nat) (f : Channel → Channel) : (setChan s i f).variant = s.variant := rfl
@[simp] theorem setChan_die (i : Nat) (f : Channel → Channel) : (setChan s i f).die = s.die := rfl
@[simp] theorem setChan_serial (i : Nat) (f : Channel → Channel) : (setChan s i f).serial = s.serial := rfl
@[simp] theorem setChan_mgmtAddr (i : Nat) (f : Channel → Channel) : (setChan s i f).mgmtAddr = s.mgmtAddr := rfl
@[simp] theorem setChan_ring (i : Nat) (f : Channel → Channel) : (setChan s i f).ring = s.ring := rfl
@[simp] theorem setChan_spi (i : Nat) (f : Channel → Channel) : (setChan s i f).spi = s.spi := rfl
@[simp] theorem setChan_smbus (i : Nat) (f : Channel → Channel) : (setChan s i f).smbus = s.smbus := rfl
@[simp] theorem setChan_ev (i : Nat) (f : Channel → Channel) : (setChan s i f).ev = s.ev := rfl
@[simp] theorem setChan_params (i : Nat) (f : Channel → Channel) : (setChan s i f).params = s.params := rfl
@[simp] theorem setChan_pend (i : Nat) (f : Channel → Channel) : (setChan s i f).pend = s.pend := rfl
@[simp] theorem setChan_cued (i : Nat) (f : Channel → Channel) : (setChan s i f).cued = s.cued := rfl
@[simp] theorem setChan_unplayed (i : Nat) (f : Channel → Channel) : (setChan s i f).unplayed = s.unplayed := rfl
@[simp] theorem setChan_ops (i : Nat) (f : Channel → Channel) : (setChan s i f).ops = s.ops := rfl
@[simp] theorem setChan_nextHandle (i : Nat) (f : Channel → Channel) : (setChan s i f).nextHandle = s.nextHandle := rfl
@[simp] theorem setChan_md (i : Nat) (f : Channel → Channel) : (setChan s i f).md = s.md := rfl
@[simp] theorem setChan_chans (i : Nat) (f : Channel → Channel) : (setChan s i f).chans = lmod s.chans i f := rfl
@[simp] theorem setChan_clk (i : Nat) (f : Channel → Channel) : (setChan s i f).clk = s.clk := rfl
@[simp] theorem setChan_gates (i : Nat) (f : Channel → Channel) : (setChan s i f).gates = s.gates := rfl
@[simp] theorem setChan_zooms (i : Nat) (f : Channel → Channel) : (setChan s i f).zooms = s.zooms := rfl
@[simp] theorem setChan_streams (i : Nat) (f : Channel → Channel) : (setChan s i f).streams = s.streams := rfl
@[simp] theorem setChan_tus (i : Nat) (f : Channel → Channel) : (setChan s i f).tus = s.tus := rfl
@[simp] theorem setChan_cue (i : Nat) (f : Channel → Channel) : (setChan s i f).cue = s.cue := rfl
@[simp] theorem setChan_caps (i : Nat) (f : Channel → Channel) : (setChan s i f).caps = s.caps := rfl
@[simp] theorem setChan_store (i : Nat) (f : Channel → Channel) : (setChan s i f).store = s.store := rfl
@[simp] theorem setChan_reduce (i : Nat) (f : Channel → Channel) : (setChan s i f).reduce = s.reduce := rfl
@[simp] theorem setChan_dus (i : Nat) (f : Channel → Channel) : (setChan s i f).dus = s.dus := rfl
@[simp] theorem setChan_disps (i : Nat) (f : Channel → Channel) : (setChan s i f).disps = s.disps := rfl
@[simp] theorem setChan_engines (i : Nat) (f : Channel → Channel) : (setChan s i f).engines = s.engines := rfl
@[simp] theorem setChan_clusters (i : Nat) (f : Channel → Channel) : (setChan s i f).clusters = s.clusters := rfl
@[simp] theorem setChan_hbm (i : Nat) (f : Channel → Channel) : (setChan s i f).hbm = s.hbm := rfl
@[simp] theorem setChan_host (i : Nat) (f : Channel → Channel) : (setChan s i f).host = s.host := rfl
@[simp] theorem setChan_aux (i : Nat) (f : Channel → Channel) : (setChan s i f).aux = s.aux := rfl
@[simp] theorem setChan_cmps (i : Nat) (f : Channel → Channel) : (setChan s i f).cmps = s.cmps := rfl
@[simp] theorem setChan_pdac (i : Nat) (f : Channel → Channel) : (setChan s i f).pdac = s.pdac := rfl
@[simp] theorem setChan_tiu (i : Nat) (f : Channel → Channel) : (setChan s i f).tiu = s.tiu := rfl
@[simp] theorem setChan_health (i : Nat) (f : Channel → Channel) : (setChan s i f).health = s.health := rfl
@[simp] theorem setChan_saved (i : Nat) (f : Channel → Channel) : (setChan s i f).saved = s.saved := rfl
@[simp] theorem setChan_pair (i : Nat) (f : Channel → Channel) : (setChan s i f).pair = s.pair := rfl
@[simp] theorem setChan_tap (i : Nat) (f : Channel → Channel) : (setChan s i f).tap = s.tap := rfl
@[simp] theorem setChan_sec (i : Nat) (f : Channel → Channel) : (setChan s i f).sec = s.sec := rfl
@[simp] theorem setChan_fresh (i : Nat) (f : Channel → Channel) : (setChan s i f).fresh = s.fresh := rfl
@[simp] theorem setChan_out (i : Nat) (f : Channel → Channel) : (setChan s i f).out = s.out := rfl

/-! ### `setClk` -/

@[simp] theorem setClk_pending (f : ClockUnit → ClockUnit) : (setClk s f).pending = s.pending := rfl
@[simp] theorem setClk_variant (f : ClockUnit → ClockUnit) : (setClk s f).variant = s.variant := rfl
@[simp] theorem setClk_die (f : ClockUnit → ClockUnit) : (setClk s f).die = s.die := rfl
@[simp] theorem setClk_serial (f : ClockUnit → ClockUnit) : (setClk s f).serial = s.serial := rfl
@[simp] theorem setClk_mgmtAddr (f : ClockUnit → ClockUnit) : (setClk s f).mgmtAddr = s.mgmtAddr := rfl
@[simp] theorem setClk_ring (f : ClockUnit → ClockUnit) : (setClk s f).ring = s.ring := rfl
@[simp] theorem setClk_spi (f : ClockUnit → ClockUnit) : (setClk s f).spi = s.spi := rfl
@[simp] theorem setClk_smbus (f : ClockUnit → ClockUnit) : (setClk s f).smbus = s.smbus := rfl
@[simp] theorem setClk_ev (f : ClockUnit → ClockUnit) : (setClk s f).ev = s.ev := rfl
@[simp] theorem setClk_params (f : ClockUnit → ClockUnit) : (setClk s f).params = s.params := rfl
@[simp] theorem setClk_pend (f : ClockUnit → ClockUnit) : (setClk s f).pend = s.pend := rfl
@[simp] theorem setClk_cued (f : ClockUnit → ClockUnit) : (setClk s f).cued = s.cued := rfl
@[simp] theorem setClk_unplayed (f : ClockUnit → ClockUnit) : (setClk s f).unplayed = s.unplayed := rfl
@[simp] theorem setClk_ops (f : ClockUnit → ClockUnit) : (setClk s f).ops = s.ops := rfl
@[simp] theorem setClk_nextHandle (f : ClockUnit → ClockUnit) : (setClk s f).nextHandle = s.nextHandle := rfl
@[simp] theorem setClk_md (f : ClockUnit → ClockUnit) : (setClk s f).md = s.md := rfl
@[simp] theorem setClk_chans (f : ClockUnit → ClockUnit) : (setClk s f).chans = s.chans := rfl
@[simp] theorem setClk_clk (f : ClockUnit → ClockUnit) : (setClk s f).clk = if holdoverOf (f s.clk) then f s.clk else { f s.clk with holdMs := 0 } := rfl
@[simp] theorem setClk_gates (f : ClockUnit → ClockUnit) : (setClk s f).gates = s.gates := rfl
@[simp] theorem setClk_zooms (f : ClockUnit → ClockUnit) : (setClk s f).zooms = s.zooms := rfl
@[simp] theorem setClk_streams (f : ClockUnit → ClockUnit) : (setClk s f).streams = s.streams := rfl
@[simp] theorem setClk_tus (f : ClockUnit → ClockUnit) : (setClk s f).tus = s.tus := rfl
@[simp] theorem setClk_cue (f : ClockUnit → ClockUnit) : (setClk s f).cue = s.cue := rfl
@[simp] theorem setClk_caps (f : ClockUnit → ClockUnit) : (setClk s f).caps = s.caps := rfl
@[simp] theorem setClk_store (f : ClockUnit → ClockUnit) : (setClk s f).store = s.store := rfl
@[simp] theorem setClk_reduce (f : ClockUnit → ClockUnit) : (setClk s f).reduce = s.reduce := rfl
@[simp] theorem setClk_dus (f : ClockUnit → ClockUnit) : (setClk s f).dus = s.dus := rfl
@[simp] theorem setClk_disps (f : ClockUnit → ClockUnit) : (setClk s f).disps = s.disps := rfl
@[simp] theorem setClk_engines (f : ClockUnit → ClockUnit) : (setClk s f).engines = s.engines := rfl
@[simp] theorem setClk_clusters (f : ClockUnit → ClockUnit) : (setClk s f).clusters = s.clusters := rfl
@[simp] theorem setClk_hbm (f : ClockUnit → ClockUnit) : (setClk s f).hbm = s.hbm := rfl
@[simp] theorem setClk_host (f : ClockUnit → ClockUnit) : (setClk s f).host = s.host := rfl
@[simp] theorem setClk_aux (f : ClockUnit → ClockUnit) : (setClk s f).aux = s.aux := rfl
@[simp] theorem setClk_cmps (f : ClockUnit → ClockUnit) : (setClk s f).cmps = s.cmps := rfl
@[simp] theorem setClk_pdac (f : ClockUnit → ClockUnit) : (setClk s f).pdac = s.pdac := rfl
@[simp] theorem setClk_tiu (f : ClockUnit → ClockUnit) : (setClk s f).tiu = s.tiu := rfl
@[simp] theorem setClk_health (f : ClockUnit → ClockUnit) : (setClk s f).health = s.health := rfl
@[simp] theorem setClk_saved (f : ClockUnit → ClockUnit) : (setClk s f).saved = s.saved := rfl
@[simp] theorem setClk_pair (f : ClockUnit → ClockUnit) : (setClk s f).pair = s.pair := rfl
@[simp] theorem setClk_tap (f : ClockUnit → ClockUnit) : (setClk s f).tap = s.tap := rfl
@[simp] theorem setClk_sec (f : ClockUnit → ClockUnit) : (setClk s f).sec = s.sec := rfl
@[simp] theorem setClk_fresh (f : ClockUnit → ClockUnit) : (setClk s f).fresh = s.fresh := rfl
@[simp] theorem setClk_out (f : ClockUnit → ClockUnit) : (setClk s f).out = s.out := rfl

/-! ### `setGate` -/

@[simp] theorem setGate_pending (i : Nat) (f : Gate → Gate) : (setGate s i f).pending = s.pending := rfl
@[simp] theorem setGate_variant (i : Nat) (f : Gate → Gate) : (setGate s i f).variant = s.variant := rfl
@[simp] theorem setGate_die (i : Nat) (f : Gate → Gate) : (setGate s i f).die = s.die := rfl
@[simp] theorem setGate_serial (i : Nat) (f : Gate → Gate) : (setGate s i f).serial = s.serial := rfl
@[simp] theorem setGate_mgmtAddr (i : Nat) (f : Gate → Gate) : (setGate s i f).mgmtAddr = s.mgmtAddr := rfl
@[simp] theorem setGate_ring (i : Nat) (f : Gate → Gate) : (setGate s i f).ring = s.ring := rfl
@[simp] theorem setGate_spi (i : Nat) (f : Gate → Gate) : (setGate s i f).spi = s.spi := rfl
@[simp] theorem setGate_smbus (i : Nat) (f : Gate → Gate) : (setGate s i f).smbus = s.smbus := rfl
@[simp] theorem setGate_ev (i : Nat) (f : Gate → Gate) : (setGate s i f).ev = s.ev := rfl
@[simp] theorem setGate_params (i : Nat) (f : Gate → Gate) : (setGate s i f).params = s.params := rfl
@[simp] theorem setGate_pend (i : Nat) (f : Gate → Gate) : (setGate s i f).pend = s.pend := rfl
@[simp] theorem setGate_cued (i : Nat) (f : Gate → Gate) : (setGate s i f).cued = s.cued := rfl
@[simp] theorem setGate_unplayed (i : Nat) (f : Gate → Gate) : (setGate s i f).unplayed = s.unplayed := rfl
@[simp] theorem setGate_ops (i : Nat) (f : Gate → Gate) : (setGate s i f).ops = s.ops := rfl
@[simp] theorem setGate_nextHandle (i : Nat) (f : Gate → Gate) : (setGate s i f).nextHandle = s.nextHandle := rfl
@[simp] theorem setGate_md (i : Nat) (f : Gate → Gate) : (setGate s i f).md = s.md := rfl
@[simp] theorem setGate_chans (i : Nat) (f : Gate → Gate) : (setGate s i f).chans = s.chans := rfl
@[simp] theorem setGate_clk (i : Nat) (f : Gate → Gate) : (setGate s i f).clk = s.clk := rfl
@[simp] theorem setGate_gates (i : Nat) (f : Gate → Gate) : (setGate s i f).gates = lmod s.gates i f := rfl
@[simp] theorem setGate_zooms (i : Nat) (f : Gate → Gate) : (setGate s i f).zooms = s.zooms := rfl
@[simp] theorem setGate_streams (i : Nat) (f : Gate → Gate) : (setGate s i f).streams = s.streams := rfl
@[simp] theorem setGate_tus (i : Nat) (f : Gate → Gate) : (setGate s i f).tus = s.tus := rfl
@[simp] theorem setGate_cue (i : Nat) (f : Gate → Gate) : (setGate s i f).cue = s.cue := rfl
@[simp] theorem setGate_caps (i : Nat) (f : Gate → Gate) : (setGate s i f).caps = s.caps := rfl
@[simp] theorem setGate_store (i : Nat) (f : Gate → Gate) : (setGate s i f).store = s.store := rfl
@[simp] theorem setGate_reduce (i : Nat) (f : Gate → Gate) : (setGate s i f).reduce = s.reduce := rfl
@[simp] theorem setGate_dus (i : Nat) (f : Gate → Gate) : (setGate s i f).dus = s.dus := rfl
@[simp] theorem setGate_disps (i : Nat) (f : Gate → Gate) : (setGate s i f).disps = s.disps := rfl
@[simp] theorem setGate_engines (i : Nat) (f : Gate → Gate) : (setGate s i f).engines = s.engines := rfl
@[simp] theorem setGate_clusters (i : Nat) (f : Gate → Gate) : (setGate s i f).clusters = s.clusters := rfl
@[simp] theorem setGate_hbm (i : Nat) (f : Gate → Gate) : (setGate s i f).hbm = s.hbm := rfl
@[simp] theorem setGate_host (i : Nat) (f : Gate → Gate) : (setGate s i f).host = s.host := rfl
@[simp] theorem setGate_aux (i : Nat) (f : Gate → Gate) : (setGate s i f).aux = s.aux := rfl
@[simp] theorem setGate_cmps (i : Nat) (f : Gate → Gate) : (setGate s i f).cmps = s.cmps := rfl
@[simp] theorem setGate_pdac (i : Nat) (f : Gate → Gate) : (setGate s i f).pdac = s.pdac := rfl
@[simp] theorem setGate_tiu (i : Nat) (f : Gate → Gate) : (setGate s i f).tiu = s.tiu := rfl
@[simp] theorem setGate_health (i : Nat) (f : Gate → Gate) : (setGate s i f).health = s.health := rfl
@[simp] theorem setGate_saved (i : Nat) (f : Gate → Gate) : (setGate s i f).saved = s.saved := rfl
@[simp] theorem setGate_pair (i : Nat) (f : Gate → Gate) : (setGate s i f).pair = s.pair := rfl
@[simp] theorem setGate_tap (i : Nat) (f : Gate → Gate) : (setGate s i f).tap = s.tap := rfl
@[simp] theorem setGate_sec (i : Nat) (f : Gate → Gate) : (setGate s i f).sec = s.sec := rfl
@[simp] theorem setGate_fresh (i : Nat) (f : Gate → Gate) : (setGate s i f).fresh = s.fresh := rfl
@[simp] theorem setGate_out (i : Nat) (f : Gate → Gate) : (setGate s i f).out = s.out := rfl

/-! ### `setZoom` -/

@[simp] theorem setZoom_pending (i : Nat) (f : Zoom → Zoom) : (setZoom s i f).pending = s.pending := rfl
@[simp] theorem setZoom_variant (i : Nat) (f : Zoom → Zoom) : (setZoom s i f).variant = s.variant := rfl
@[simp] theorem setZoom_die (i : Nat) (f : Zoom → Zoom) : (setZoom s i f).die = s.die := rfl
@[simp] theorem setZoom_serial (i : Nat) (f : Zoom → Zoom) : (setZoom s i f).serial = s.serial := rfl
@[simp] theorem setZoom_mgmtAddr (i : Nat) (f : Zoom → Zoom) : (setZoom s i f).mgmtAddr = s.mgmtAddr := rfl
@[simp] theorem setZoom_ring (i : Nat) (f : Zoom → Zoom) : (setZoom s i f).ring = s.ring := rfl
@[simp] theorem setZoom_spi (i : Nat) (f : Zoom → Zoom) : (setZoom s i f).spi = s.spi := rfl
@[simp] theorem setZoom_smbus (i : Nat) (f : Zoom → Zoom) : (setZoom s i f).smbus = s.smbus := rfl
@[simp] theorem setZoom_ev (i : Nat) (f : Zoom → Zoom) : (setZoom s i f).ev = s.ev := rfl
@[simp] theorem setZoom_params (i : Nat) (f : Zoom → Zoom) : (setZoom s i f).params = s.params := rfl
@[simp] theorem setZoom_pend (i : Nat) (f : Zoom → Zoom) : (setZoom s i f).pend = s.pend := rfl
@[simp] theorem setZoom_cued (i : Nat) (f : Zoom → Zoom) : (setZoom s i f).cued = s.cued := rfl
@[simp] theorem setZoom_unplayed (i : Nat) (f : Zoom → Zoom) : (setZoom s i f).unplayed = s.unplayed := rfl
@[simp] theorem setZoom_ops (i : Nat) (f : Zoom → Zoom) : (setZoom s i f).ops = s.ops := rfl
@[simp] theorem setZoom_nextHandle (i : Nat) (f : Zoom → Zoom) : (setZoom s i f).nextHandle = s.nextHandle := rfl
@[simp] theorem setZoom_md (i : Nat) (f : Zoom → Zoom) : (setZoom s i f).md = s.md := rfl
@[simp] theorem setZoom_chans (i : Nat) (f : Zoom → Zoom) : (setZoom s i f).chans = s.chans := rfl
@[simp] theorem setZoom_clk (i : Nat) (f : Zoom → Zoom) : (setZoom s i f).clk = s.clk := rfl
@[simp] theorem setZoom_gates (i : Nat) (f : Zoom → Zoom) : (setZoom s i f).gates = s.gates := rfl
@[simp] theorem setZoom_zooms (i : Nat) (f : Zoom → Zoom) : (setZoom s i f).zooms = lmod s.zooms i f := rfl
@[simp] theorem setZoom_streams (i : Nat) (f : Zoom → Zoom) : (setZoom s i f).streams = s.streams := rfl
@[simp] theorem setZoom_tus (i : Nat) (f : Zoom → Zoom) : (setZoom s i f).tus = s.tus := rfl
@[simp] theorem setZoom_cue (i : Nat) (f : Zoom → Zoom) : (setZoom s i f).cue = s.cue := rfl
@[simp] theorem setZoom_caps (i : Nat) (f : Zoom → Zoom) : (setZoom s i f).caps = s.caps := rfl
@[simp] theorem setZoom_store (i : Nat) (f : Zoom → Zoom) : (setZoom s i f).store = s.store := rfl
@[simp] theorem setZoom_reduce (i : Nat) (f : Zoom → Zoom) : (setZoom s i f).reduce = s.reduce := rfl
@[simp] theorem setZoom_dus (i : Nat) (f : Zoom → Zoom) : (setZoom s i f).dus = s.dus := rfl
@[simp] theorem setZoom_disps (i : Nat) (f : Zoom → Zoom) : (setZoom s i f).disps = s.disps := rfl
@[simp] theorem setZoom_engines (i : Nat) (f : Zoom → Zoom) : (setZoom s i f).engines = s.engines := rfl
@[simp] theorem setZoom_clusters (i : Nat) (f : Zoom → Zoom) : (setZoom s i f).clusters = s.clusters := rfl
@[simp] theorem setZoom_hbm (i : Nat) (f : Zoom → Zoom) : (setZoom s i f).hbm = s.hbm := rfl
@[simp] theorem setZoom_host (i : Nat) (f : Zoom → Zoom) : (setZoom s i f).host = s.host := rfl
@[simp] theorem setZoom_aux (i : Nat) (f : Zoom → Zoom) : (setZoom s i f).aux = s.aux := rfl
@[simp] theorem setZoom_cmps (i : Nat) (f : Zoom → Zoom) : (setZoom s i f).cmps = s.cmps := rfl
@[simp] theorem setZoom_pdac (i : Nat) (f : Zoom → Zoom) : (setZoom s i f).pdac = s.pdac := rfl
@[simp] theorem setZoom_tiu (i : Nat) (f : Zoom → Zoom) : (setZoom s i f).tiu = s.tiu := rfl
@[simp] theorem setZoom_health (i : Nat) (f : Zoom → Zoom) : (setZoom s i f).health = s.health := rfl
@[simp] theorem setZoom_saved (i : Nat) (f : Zoom → Zoom) : (setZoom s i f).saved = s.saved := rfl
@[simp] theorem setZoom_pair (i : Nat) (f : Zoom → Zoom) : (setZoom s i f).pair = s.pair := rfl
@[simp] theorem setZoom_tap (i : Nat) (f : Zoom → Zoom) : (setZoom s i f).tap = s.tap := rfl
@[simp] theorem setZoom_sec (i : Nat) (f : Zoom → Zoom) : (setZoom s i f).sec = s.sec := rfl
@[simp] theorem setZoom_fresh (i : Nat) (f : Zoom → Zoom) : (setZoom s i f).fresh = s.fresh := rfl
@[simp] theorem setZoom_out (i : Nat) (f : Zoom → Zoom) : (setZoom s i f).out = s.out := rfl

/-! ### `setStream` -/

@[simp] theorem setStream_pending (i : Nat) (f : Stream → Stream) : (setStream s i f).pending = s.pending := rfl
@[simp] theorem setStream_variant (i : Nat) (f : Stream → Stream) : (setStream s i f).variant = s.variant := rfl
@[simp] theorem setStream_die (i : Nat) (f : Stream → Stream) : (setStream s i f).die = s.die := rfl
@[simp] theorem setStream_serial (i : Nat) (f : Stream → Stream) : (setStream s i f).serial = s.serial := rfl
@[simp] theorem setStream_mgmtAddr (i : Nat) (f : Stream → Stream) : (setStream s i f).mgmtAddr = s.mgmtAddr := rfl
@[simp] theorem setStream_ring (i : Nat) (f : Stream → Stream) : (setStream s i f).ring = s.ring := rfl
@[simp] theorem setStream_spi (i : Nat) (f : Stream → Stream) : (setStream s i f).spi = s.spi := rfl
@[simp] theorem setStream_smbus (i : Nat) (f : Stream → Stream) : (setStream s i f).smbus = s.smbus := rfl
@[simp] theorem setStream_ev (i : Nat) (f : Stream → Stream) : (setStream s i f).ev = s.ev := rfl
@[simp] theorem setStream_params (i : Nat) (f : Stream → Stream) : (setStream s i f).params = s.params := rfl
@[simp] theorem setStream_pend (i : Nat) (f : Stream → Stream) : (setStream s i f).pend = s.pend := rfl
@[simp] theorem setStream_cued (i : Nat) (f : Stream → Stream) : (setStream s i f).cued = s.cued := rfl
@[simp] theorem setStream_unplayed (i : Nat) (f : Stream → Stream) : (setStream s i f).unplayed = s.unplayed := rfl
@[simp] theorem setStream_ops (i : Nat) (f : Stream → Stream) : (setStream s i f).ops = s.ops := rfl
@[simp] theorem setStream_nextHandle (i : Nat) (f : Stream → Stream) : (setStream s i f).nextHandle = s.nextHandle := rfl
@[simp] theorem setStream_md (i : Nat) (f : Stream → Stream) : (setStream s i f).md = s.md := rfl
@[simp] theorem setStream_chans (i : Nat) (f : Stream → Stream) : (setStream s i f).chans = s.chans := rfl
@[simp] theorem setStream_clk (i : Nat) (f : Stream → Stream) : (setStream s i f).clk = s.clk := rfl
@[simp] theorem setStream_gates (i : Nat) (f : Stream → Stream) : (setStream s i f).gates = s.gates := rfl
@[simp] theorem setStream_zooms (i : Nat) (f : Stream → Stream) : (setStream s i f).zooms = s.zooms := rfl
@[simp] theorem setStream_streams (i : Nat) (f : Stream → Stream) : (setStream s i f).streams = lmod s.streams i f := rfl
@[simp] theorem setStream_tus (i : Nat) (f : Stream → Stream) : (setStream s i f).tus = s.tus := rfl
@[simp] theorem setStream_cue (i : Nat) (f : Stream → Stream) : (setStream s i f).cue = s.cue := rfl
@[simp] theorem setStream_caps (i : Nat) (f : Stream → Stream) : (setStream s i f).caps = s.caps := rfl
@[simp] theorem setStream_store (i : Nat) (f : Stream → Stream) : (setStream s i f).store = s.store := rfl
@[simp] theorem setStream_reduce (i : Nat) (f : Stream → Stream) : (setStream s i f).reduce = s.reduce := rfl
@[simp] theorem setStream_dus (i : Nat) (f : Stream → Stream) : (setStream s i f).dus = s.dus := rfl
@[simp] theorem setStream_disps (i : Nat) (f : Stream → Stream) : (setStream s i f).disps = s.disps := rfl
@[simp] theorem setStream_engines (i : Nat) (f : Stream → Stream) : (setStream s i f).engines = s.engines := rfl
@[simp] theorem setStream_clusters (i : Nat) (f : Stream → Stream) : (setStream s i f).clusters = s.clusters := rfl
@[simp] theorem setStream_hbm (i : Nat) (f : Stream → Stream) : (setStream s i f).hbm = s.hbm := rfl
@[simp] theorem setStream_host (i : Nat) (f : Stream → Stream) : (setStream s i f).host = s.host := rfl
@[simp] theorem setStream_aux (i : Nat) (f : Stream → Stream) : (setStream s i f).aux = s.aux := rfl
@[simp] theorem setStream_cmps (i : Nat) (f : Stream → Stream) : (setStream s i f).cmps = s.cmps := rfl
@[simp] theorem setStream_pdac (i : Nat) (f : Stream → Stream) : (setStream s i f).pdac = s.pdac := rfl
@[simp] theorem setStream_tiu (i : Nat) (f : Stream → Stream) : (setStream s i f).tiu = s.tiu := rfl
@[simp] theorem setStream_health (i : Nat) (f : Stream → Stream) : (setStream s i f).health = s.health := rfl
@[simp] theorem setStream_saved (i : Nat) (f : Stream → Stream) : (setStream s i f).saved = s.saved := rfl
@[simp] theorem setStream_pair (i : Nat) (f : Stream → Stream) : (setStream s i f).pair = s.pair := rfl
@[simp] theorem setStream_tap (i : Nat) (f : Stream → Stream) : (setStream s i f).tap = s.tap := rfl
@[simp] theorem setStream_sec (i : Nat) (f : Stream → Stream) : (setStream s i f).sec = s.sec := rfl
@[simp] theorem setStream_fresh (i : Nat) (f : Stream → Stream) : (setStream s i f).fresh = s.fresh := rfl
@[simp] theorem setStream_out (i : Nat) (f : Stream → Stream) : (setStream s i f).out = s.out := rfl

/-! ### `setSheet` -/

@[simp] theorem setSheet_pending (i : Nat) (f : Sheet → Sheet) : (setSheet s i f).pending = s.pending := rfl
@[simp] theorem setSheet_variant (i : Nat) (f : Sheet → Sheet) : (setSheet s i f).variant = s.variant := rfl
@[simp] theorem setSheet_die (i : Nat) (f : Sheet → Sheet) : (setSheet s i f).die = s.die := rfl
@[simp] theorem setSheet_serial (i : Nat) (f : Sheet → Sheet) : (setSheet s i f).serial = s.serial := rfl
@[simp] theorem setSheet_mgmtAddr (i : Nat) (f : Sheet → Sheet) : (setSheet s i f).mgmtAddr = s.mgmtAddr := rfl
@[simp] theorem setSheet_ring (i : Nat) (f : Sheet → Sheet) : (setSheet s i f).ring = s.ring := rfl
@[simp] theorem setSheet_spi (i : Nat) (f : Sheet → Sheet) : (setSheet s i f).spi = s.spi := rfl
@[simp] theorem setSheet_smbus (i : Nat) (f : Sheet → Sheet) : (setSheet s i f).smbus = s.smbus := rfl
@[simp] theorem setSheet_ev (i : Nat) (f : Sheet → Sheet) : (setSheet s i f).ev = s.ev := rfl
@[simp] theorem setSheet_params (i : Nat) (f : Sheet → Sheet) : (setSheet s i f).params = s.params := rfl
@[simp] theorem setSheet_pend (i : Nat) (f : Sheet → Sheet) : (setSheet s i f).pend = s.pend := rfl
@[simp] theorem setSheet_cued (i : Nat) (f : Sheet → Sheet) : (setSheet s i f).cued = s.cued := rfl
@[simp] theorem setSheet_unplayed (i : Nat) (f : Sheet → Sheet) : (setSheet s i f).unplayed = s.unplayed := rfl
@[simp] theorem setSheet_ops (i : Nat) (f : Sheet → Sheet) : (setSheet s i f).ops = s.ops := rfl
@[simp] theorem setSheet_nextHandle (i : Nat) (f : Sheet → Sheet) : (setSheet s i f).nextHandle = s.nextHandle := rfl
@[simp] theorem setSheet_md (i : Nat) (f : Sheet → Sheet) : (setSheet s i f).md = s.md := rfl
@[simp] theorem setSheet_chans (i : Nat) (f : Sheet → Sheet) : (setSheet s i f).chans = s.chans := rfl
@[simp] theorem setSheet_clk (i : Nat) (f : Sheet → Sheet) : (setSheet s i f).clk = s.clk := rfl
@[simp] theorem setSheet_gates (i : Nat) (f : Sheet → Sheet) : (setSheet s i f).gates = s.gates := rfl
@[simp] theorem setSheet_zooms (i : Nat) (f : Sheet → Sheet) : (setSheet s i f).zooms = s.zooms := rfl
@[simp] theorem setSheet_streams (i : Nat) (f : Sheet → Sheet) : (setSheet s i f).streams = s.streams := rfl
@[simp] theorem setSheet_tus (i : Nat) (f : Sheet → Sheet) : (setSheet s i f).tus = s.tus := rfl
@[simp] theorem setSheet_cue (i : Nat) (f : Sheet → Sheet) : (setSheet s i f).cue = { s.cue with sheets := lmod s.cue.sheets i f } := rfl
@[simp] theorem setSheet_caps (i : Nat) (f : Sheet → Sheet) : (setSheet s i f).caps = s.caps := rfl
@[simp] theorem setSheet_store (i : Nat) (f : Sheet → Sheet) : (setSheet s i f).store = s.store := rfl
@[simp] theorem setSheet_reduce (i : Nat) (f : Sheet → Sheet) : (setSheet s i f).reduce = s.reduce := rfl
@[simp] theorem setSheet_dus (i : Nat) (f : Sheet → Sheet) : (setSheet s i f).dus = s.dus := rfl
@[simp] theorem setSheet_disps (i : Nat) (f : Sheet → Sheet) : (setSheet s i f).disps = s.disps := rfl
@[simp] theorem setSheet_engines (i : Nat) (f : Sheet → Sheet) : (setSheet s i f).engines = s.engines := rfl
@[simp] theorem setSheet_clusters (i : Nat) (f : Sheet → Sheet) : (setSheet s i f).clusters = s.clusters := rfl
@[simp] theorem setSheet_hbm (i : Nat) (f : Sheet → Sheet) : (setSheet s i f).hbm = s.hbm := rfl
@[simp] theorem setSheet_host (i : Nat) (f : Sheet → Sheet) : (setSheet s i f).host = s.host := rfl
@[simp] theorem setSheet_aux (i : Nat) (f : Sheet → Sheet) : (setSheet s i f).aux = s.aux := rfl
@[simp] theorem setSheet_cmps (i : Nat) (f : Sheet → Sheet) : (setSheet s i f).cmps = s.cmps := rfl
@[simp] theorem setSheet_pdac (i : Nat) (f : Sheet → Sheet) : (setSheet s i f).pdac = s.pdac := rfl
@[simp] theorem setSheet_tiu (i : Nat) (f : Sheet → Sheet) : (setSheet s i f).tiu = s.tiu := rfl
@[simp] theorem setSheet_health (i : Nat) (f : Sheet → Sheet) : (setSheet s i f).health = s.health := rfl
@[simp] theorem setSheet_saved (i : Nat) (f : Sheet → Sheet) : (setSheet s i f).saved = s.saved := rfl
@[simp] theorem setSheet_pair (i : Nat) (f : Sheet → Sheet) : (setSheet s i f).pair = s.pair := rfl
@[simp] theorem setSheet_tap (i : Nat) (f : Sheet → Sheet) : (setSheet s i f).tap = s.tap := rfl
@[simp] theorem setSheet_sec (i : Nat) (f : Sheet → Sheet) : (setSheet s i f).sec = s.sec := rfl
@[simp] theorem setSheet_fresh (i : Nat) (f : Sheet → Sheet) : (setSheet s i f).fresh = s.fresh := rfl
@[simp] theorem setSheet_out (i : Nat) (f : Sheet → Sheet) : (setSheet s i f).out = s.out := rfl

/-! ### `setCap` -/

@[simp] theorem setCap_pending (i : Nat) (f : CapUnit → CapUnit) : (setCap s i f).pending = s.pending := rfl
@[simp] theorem setCap_variant (i : Nat) (f : CapUnit → CapUnit) : (setCap s i f).variant = s.variant := rfl
@[simp] theorem setCap_die (i : Nat) (f : CapUnit → CapUnit) : (setCap s i f).die = s.die := rfl
@[simp] theorem setCap_serial (i : Nat) (f : CapUnit → CapUnit) : (setCap s i f).serial = s.serial := rfl
@[simp] theorem setCap_mgmtAddr (i : Nat) (f : CapUnit → CapUnit) : (setCap s i f).mgmtAddr = s.mgmtAddr := rfl
@[simp] theorem setCap_ring (i : Nat) (f : CapUnit → CapUnit) : (setCap s i f).ring = s.ring := rfl
@[simp] theorem setCap_spi (i : Nat) (f : CapUnit → CapUnit) : (setCap s i f).spi = s.spi := rfl
@[simp] theorem setCap_smbus (i : Nat) (f : CapUnit → CapUnit) : (setCap s i f).smbus = s.smbus := rfl
@[simp] theorem setCap_ev (i : Nat) (f : CapUnit → CapUnit) : (setCap s i f).ev = s.ev := rfl
@[simp] theorem setCap_params (i : Nat) (f : CapUnit → CapUnit) : (setCap s i f).params = s.params := rfl
@[simp] theorem setCap_pend (i : Nat) (f : CapUnit → CapUnit) : (setCap s i f).pend = s.pend := rfl
@[simp] theorem setCap_cued (i : Nat) (f : CapUnit → CapUnit) : (setCap s i f).cued = s.cued := rfl
@[simp] theorem setCap_unplayed (i : Nat) (f : CapUnit → CapUnit) : (setCap s i f).unplayed = s.unplayed := rfl
@[simp] theorem setCap_ops (i : Nat) (f : CapUnit → CapUnit) : (setCap s i f).ops = s.ops := rfl
@[simp] theorem setCap_nextHandle (i : Nat) (f : CapUnit → CapUnit) : (setCap s i f).nextHandle = s.nextHandle := rfl
@[simp] theorem setCap_md (i : Nat) (f : CapUnit → CapUnit) : (setCap s i f).md = s.md := rfl
@[simp] theorem setCap_chans (i : Nat) (f : CapUnit → CapUnit) : (setCap s i f).chans = s.chans := rfl
@[simp] theorem setCap_clk (i : Nat) (f : CapUnit → CapUnit) : (setCap s i f).clk = s.clk := rfl
@[simp] theorem setCap_gates (i : Nat) (f : CapUnit → CapUnit) : (setCap s i f).gates = s.gates := rfl
@[simp] theorem setCap_zooms (i : Nat) (f : CapUnit → CapUnit) : (setCap s i f).zooms = s.zooms := rfl
@[simp] theorem setCap_streams (i : Nat) (f : CapUnit → CapUnit) : (setCap s i f).streams = s.streams := rfl
@[simp] theorem setCap_tus (i : Nat) (f : CapUnit → CapUnit) : (setCap s i f).tus = s.tus := rfl
@[simp] theorem setCap_cue (i : Nat) (f : CapUnit → CapUnit) : (setCap s i f).cue = s.cue := rfl
@[simp] theorem setCap_caps (i : Nat) (f : CapUnit → CapUnit) : (setCap s i f).caps = lmod s.caps i f := rfl
@[simp] theorem setCap_store (i : Nat) (f : CapUnit → CapUnit) : (setCap s i f).store = s.store := rfl
@[simp] theorem setCap_reduce (i : Nat) (f : CapUnit → CapUnit) : (setCap s i f).reduce = s.reduce := rfl
@[simp] theorem setCap_dus (i : Nat) (f : CapUnit → CapUnit) : (setCap s i f).dus = s.dus := rfl
@[simp] theorem setCap_disps (i : Nat) (f : CapUnit → CapUnit) : (setCap s i f).disps = s.disps := rfl
@[simp] theorem setCap_engines (i : Nat) (f : CapUnit → CapUnit) : (setCap s i f).engines = s.engines := rfl
@[simp] theorem setCap_clusters (i : Nat) (f : CapUnit → CapUnit) : (setCap s i f).clusters = s.clusters := rfl
@[simp] theorem setCap_hbm (i : Nat) (f : CapUnit → CapUnit) : (setCap s i f).hbm = s.hbm := rfl
@[simp] theorem setCap_host (i : Nat) (f : CapUnit → CapUnit) : (setCap s i f).host = s.host := rfl
@[simp] theorem setCap_aux (i : Nat) (f : CapUnit → CapUnit) : (setCap s i f).aux = s.aux := rfl
@[simp] theorem setCap_cmps (i : Nat) (f : CapUnit → CapUnit) : (setCap s i f).cmps = s.cmps := rfl
@[simp] theorem setCap_pdac (i : Nat) (f : CapUnit → CapUnit) : (setCap s i f).pdac = s.pdac := rfl
@[simp] theorem setCap_tiu (i : Nat) (f : CapUnit → CapUnit) : (setCap s i f).tiu = s.tiu := rfl
@[simp] theorem setCap_health (i : Nat) (f : CapUnit → CapUnit) : (setCap s i f).health = s.health := rfl
@[simp] theorem setCap_saved (i : Nat) (f : CapUnit → CapUnit) : (setCap s i f).saved = s.saved := rfl
@[simp] theorem setCap_pair (i : Nat) (f : CapUnit → CapUnit) : (setCap s i f).pair = s.pair := rfl
@[simp] theorem setCap_tap (i : Nat) (f : CapUnit → CapUnit) : (setCap s i f).tap = s.tap := rfl
@[simp] theorem setCap_sec (i : Nat) (f : CapUnit → CapUnit) : (setCap s i f).sec = s.sec := rfl
@[simp] theorem setCap_fresh (i : Nat) (f : CapUnit → CapUnit) : (setCap s i f).fresh = s.fresh := rfl
@[simp] theorem setCap_out (i : Nat) (f : CapUnit → CapUnit) : (setCap s i f).out = s.out := rfl

/-! ### `setStore` -/

@[simp] theorem setStore_pending (f : Store → Store) : (setStore s f).pending = s.pending := rfl
@[simp] theorem setStore_variant (f : Store → Store) : (setStore s f).variant = s.variant := rfl
@[simp] theorem setStore_die (f : Store → Store) : (setStore s f).die = s.die := rfl
@[simp] theorem setStore_serial (f : Store → Store) : (setStore s f).serial = s.serial := rfl
@[simp] theorem setStore_mgmtAddr (f : Store → Store) : (setStore s f).mgmtAddr = s.mgmtAddr := rfl
@[simp] theorem setStore_ring (f : Store → Store) : (setStore s f).ring = s.ring := rfl
@[simp] theorem setStore_spi (f : Store → Store) : (setStore s f).spi = s.spi := rfl
@[simp] theorem setStore_smbus (f : Store → Store) : (setStore s f).smbus = s.smbus := rfl
@[simp] theorem setStore_ev (f : Store → Store) : (setStore s f).ev = s.ev := rfl
@[simp] theorem setStore_params (f : Store → Store) : (setStore s f).params = s.params := rfl
@[simp] theorem setStore_pend (f : Store → Store) : (setStore s f).pend = s.pend := rfl
@[simp] theorem setStore_cued (f : Store → Store) : (setStore s f).cued = s.cued := rfl
@[simp] theorem setStore_unplayed (f : Store → Store) : (setStore s f).unplayed = s.unplayed := rfl
@[simp] theorem setStore_ops (f : Store → Store) : (setStore s f).ops = s.ops := rfl
@[simp] theorem setStore_nextHandle (f : Store → Store) : (setStore s f).nextHandle = s.nextHandle := rfl
@[simp] theorem setStore_md (f : Store → Store) : (setStore s f).md = s.md := rfl
@[simp] theorem setStore_chans (f : Store → Store) : (setStore s f).chans = s.chans := rfl
@[simp] theorem setStore_clk (f : Store → Store) : (setStore s f).clk = s.clk := rfl
@[simp] theorem setStore_gates (f : Store → Store) : (setStore s f).gates = s.gates := rfl
@[simp] theorem setStore_zooms (f : Store → Store) : (setStore s f).zooms = s.zooms := rfl
@[simp] theorem setStore_streams (f : Store → Store) : (setStore s f).streams = s.streams := rfl
@[simp] theorem setStore_tus (f : Store → Store) : (setStore s f).tus = s.tus := rfl
@[simp] theorem setStore_cue (f : Store → Store) : (setStore s f).cue = s.cue := rfl
@[simp] theorem setStore_caps (f : Store → Store) : (setStore s f).caps = s.caps := rfl
@[simp] theorem setStore_store (f : Store → Store) : (setStore s f).store = f s.store := rfl
@[simp] theorem setStore_reduce (f : Store → Store) : (setStore s f).reduce = s.reduce := rfl
@[simp] theorem setStore_dus (f : Store → Store) : (setStore s f).dus = s.dus := rfl
@[simp] theorem setStore_disps (f : Store → Store) : (setStore s f).disps = s.disps := rfl
@[simp] theorem setStore_engines (f : Store → Store) : (setStore s f).engines = s.engines := rfl
@[simp] theorem setStore_clusters (f : Store → Store) : (setStore s f).clusters = s.clusters := rfl
@[simp] theorem setStore_hbm (f : Store → Store) : (setStore s f).hbm = s.hbm := rfl
@[simp] theorem setStore_host (f : Store → Store) : (setStore s f).host = s.host := rfl
@[simp] theorem setStore_aux (f : Store → Store) : (setStore s f).aux = s.aux := rfl
@[simp] theorem setStore_cmps (f : Store → Store) : (setStore s f).cmps = s.cmps := rfl
@[simp] theorem setStore_pdac (f : Store → Store) : (setStore s f).pdac = s.pdac := rfl
@[simp] theorem setStore_tiu (f : Store → Store) : (setStore s f).tiu = s.tiu := rfl
@[simp] theorem setStore_health (f : Store → Store) : (setStore s f).health = s.health := rfl
@[simp] theorem setStore_saved (f : Store → Store) : (setStore s f).saved = s.saved := rfl
@[simp] theorem setStore_pair (f : Store → Store) : (setStore s f).pair = s.pair := rfl
@[simp] theorem setStore_tap (f : Store → Store) : (setStore s f).tap = s.tap := rfl
@[simp] theorem setStore_sec (f : Store → Store) : (setStore s f).sec = s.sec := rfl
@[simp] theorem setStore_fresh (f : Store → Store) : (setStore s f).fresh = s.fresh := rfl
@[simp] theorem setStore_out (f : Store → Store) : (setStore s f).out = s.out := rfl

/-! ### `setDu` -/

@[simp] theorem setDu_pending (i : Nat) (f : DensityUnit → DensityUnit) : (setDu s i f).pending = s.pending := rfl
@[simp] theorem setDu_variant (i : Nat) (f : DensityUnit → DensityUnit) : (setDu s i f).variant = s.variant := rfl
@[simp] theorem setDu_die (i : Nat) (f : DensityUnit → DensityUnit) : (setDu s i f).die = s.die := rfl
@[simp] theorem setDu_serial (i : Nat) (f : DensityUnit → DensityUnit) : (setDu s i f).serial = s.serial := rfl
@[simp] theorem setDu_mgmtAddr (i : Nat) (f : DensityUnit → DensityUnit) : (setDu s i f).mgmtAddr = s.mgmtAddr := rfl
@[simp] theorem setDu_ring (i : Nat) (f : DensityUnit → DensityUnit) : (setDu s i f).ring = s.ring := rfl
@[simp] theorem setDu_spi (i : Nat) (f : DensityUnit → DensityUnit) : (setDu s i f).spi = s.spi := rfl
@[simp] theorem setDu_smbus (i : Nat) (f : DensityUnit → DensityUnit) : (setDu s i f).smbus = s.smbus := rfl
@[simp] theorem setDu_ev (i : Nat) (f : DensityUnit → DensityUnit) : (setDu s i f).ev = s.ev := rfl
@[simp] theorem setDu_params (i : Nat) (f : DensityUnit → DensityUnit) : (setDu s i f).params = s.params := rfl
@[simp] theorem setDu_pend (i : Nat) (f : DensityUnit → DensityUnit) : (setDu s i f).pend = s.pend := rfl
@[simp] theorem setDu_cued (i : Nat) (f : DensityUnit → DensityUnit) : (setDu s i f).cued = s.cued := rfl
@[simp] theorem setDu_unplayed (i : Nat) (f : DensityUnit → DensityUnit) : (setDu s i f).unplayed = s.unplayed := rfl
@[simp] theorem setDu_ops (i : Nat) (f : DensityUnit → DensityUnit) : (setDu s i f).ops = s.ops := rfl
@[simp] theorem setDu_nextHandle (i : Nat) (f : DensityUnit → DensityUnit) : (setDu s i f).nextHandle = s.nextHandle := rfl
@[simp] theorem setDu_md (i : Nat) (f : DensityUnit → DensityUnit) : (setDu s i f).md = s.md := rfl
@[simp] theorem setDu_chans (i : Nat) (f : DensityUnit → DensityUnit) : (setDu s i f).chans = s.chans := rfl
@[simp] theorem setDu_clk (i : Nat) (f : DensityUnit → DensityUnit) : (setDu s i f).clk = s.clk := rfl
@[simp] theorem setDu_gates (i : Nat) (f : DensityUnit → DensityUnit) : (setDu s i f).gates = s.gates := rfl
@[simp] theorem setDu_zooms (i : Nat) (f : DensityUnit → DensityUnit) : (setDu s i f).zooms = s.zooms := rfl
@[simp] theorem setDu_streams (i : Nat) (f : DensityUnit → DensityUnit) : (setDu s i f).streams = s.streams := rfl
@[simp] theorem setDu_tus (i : Nat) (f : DensityUnit → DensityUnit) : (setDu s i f).tus = s.tus := rfl
@[simp] theorem setDu_cue (i : Nat) (f : DensityUnit → DensityUnit) : (setDu s i f).cue = s.cue := rfl
@[simp] theorem setDu_caps (i : Nat) (f : DensityUnit → DensityUnit) : (setDu s i f).caps = s.caps := rfl
@[simp] theorem setDu_store (i : Nat) (f : DensityUnit → DensityUnit) : (setDu s i f).store = s.store := rfl
@[simp] theorem setDu_reduce (i : Nat) (f : DensityUnit → DensityUnit) : (setDu s i f).reduce = s.reduce := rfl
@[simp] theorem setDu_dus (i : Nat) (f : DensityUnit → DensityUnit) : (setDu s i f).dus = lmod s.dus i f := rfl
@[simp] theorem setDu_disps (i : Nat) (f : DensityUnit → DensityUnit) : (setDu s i f).disps = s.disps := rfl
@[simp] theorem setDu_engines (i : Nat) (f : DensityUnit → DensityUnit) : (setDu s i f).engines = s.engines := rfl
@[simp] theorem setDu_clusters (i : Nat) (f : DensityUnit → DensityUnit) : (setDu s i f).clusters = s.clusters := rfl
@[simp] theorem setDu_hbm (i : Nat) (f : DensityUnit → DensityUnit) : (setDu s i f).hbm = s.hbm := rfl
@[simp] theorem setDu_host (i : Nat) (f : DensityUnit → DensityUnit) : (setDu s i f).host = s.host := rfl
@[simp] theorem setDu_aux (i : Nat) (f : DensityUnit → DensityUnit) : (setDu s i f).aux = s.aux := rfl
@[simp] theorem setDu_cmps (i : Nat) (f : DensityUnit → DensityUnit) : (setDu s i f).cmps = s.cmps := rfl
@[simp] theorem setDu_pdac (i : Nat) (f : DensityUnit → DensityUnit) : (setDu s i f).pdac = s.pdac := rfl
@[simp] theorem setDu_tiu (i : Nat) (f : DensityUnit → DensityUnit) : (setDu s i f).tiu = s.tiu := rfl
@[simp] theorem setDu_health (i : Nat) (f : DensityUnit → DensityUnit) : (setDu s i f).health = s.health := rfl
@[simp] theorem setDu_saved (i : Nat) (f : DensityUnit → DensityUnit) : (setDu s i f).saved = s.saved := rfl
@[simp] theorem setDu_pair (i : Nat) (f : DensityUnit → DensityUnit) : (setDu s i f).pair = s.pair := rfl
@[simp] theorem setDu_tap (i : Nat) (f : DensityUnit → DensityUnit) : (setDu s i f).tap = s.tap := rfl
@[simp] theorem setDu_sec (i : Nat) (f : DensityUnit → DensityUnit) : (setDu s i f).sec = s.sec := rfl
@[simp] theorem setDu_fresh (i : Nat) (f : DensityUnit → DensityUnit) : (setDu s i f).fresh = s.fresh := rfl
@[simp] theorem setDu_out (i : Nat) (f : DensityUnit → DensityUnit) : (setDu s i f).out = s.out := rfl

/-! ### `setDisp` -/

@[simp] theorem setDisp_pending (i : Nat) (f : DisplayOut → DisplayOut) : (setDisp s i f).pending = s.pending := rfl
@[simp] theorem setDisp_variant (i : Nat) (f : DisplayOut → DisplayOut) : (setDisp s i f).variant = s.variant := rfl
@[simp] theorem setDisp_die (i : Nat) (f : DisplayOut → DisplayOut) : (setDisp s i f).die = s.die := rfl
@[simp] theorem setDisp_serial (i : Nat) (f : DisplayOut → DisplayOut) : (setDisp s i f).serial = s.serial := rfl
@[simp] theorem setDisp_mgmtAddr (i : Nat) (f : DisplayOut → DisplayOut) : (setDisp s i f).mgmtAddr = s.mgmtAddr := rfl
@[simp] theorem setDisp_ring (i : Nat) (f : DisplayOut → DisplayOut) : (setDisp s i f).ring = s.ring := rfl
@[simp] theorem setDisp_spi (i : Nat) (f : DisplayOut → DisplayOut) : (setDisp s i f).spi = s.spi := rfl
@[simp] theorem setDisp_smbus (i : Nat) (f : DisplayOut → DisplayOut) : (setDisp s i f).smbus = s.smbus := rfl
@[simp] theorem setDisp_ev (i : Nat) (f : DisplayOut → DisplayOut) : (setDisp s i f).ev = s.ev := rfl
@[simp] theorem setDisp_params (i : Nat) (f : DisplayOut → DisplayOut) : (setDisp s i f).params = s.params := rfl
@[simp] theorem setDisp_pend (i : Nat) (f : DisplayOut → DisplayOut) : (setDisp s i f).pend = s.pend := rfl
@[simp] theorem setDisp_cued (i : Nat) (f : DisplayOut → DisplayOut) : (setDisp s i f).cued = s.cued := rfl
@[simp] theorem setDisp_unplayed (i : Nat) (f : DisplayOut → DisplayOut) : (setDisp s i f).unplayed = s.unplayed := rfl
@[simp] theorem setDisp_ops (i : Nat) (f : DisplayOut → DisplayOut) : (setDisp s i f).ops = s.ops := rfl
@[simp] theorem setDisp_nextHandle (i : Nat) (f : DisplayOut → DisplayOut) : (setDisp s i f).nextHandle = s.nextHandle := rfl
@[simp] theorem setDisp_md (i : Nat) (f : DisplayOut → DisplayOut) : (setDisp s i f).md = s.md := rfl
@[simp] theorem setDisp_chans (i : Nat) (f : DisplayOut → DisplayOut) : (setDisp s i f).chans = s.chans := rfl
@[simp] theorem setDisp_clk (i : Nat) (f : DisplayOut → DisplayOut) : (setDisp s i f).clk = s.clk := rfl
@[simp] theorem setDisp_gates (i : Nat) (f : DisplayOut → DisplayOut) : (setDisp s i f).gates = s.gates := rfl
@[simp] theorem setDisp_zooms (i : Nat) (f : DisplayOut → DisplayOut) : (setDisp s i f).zooms = s.zooms := rfl
@[simp] theorem setDisp_streams (i : Nat) (f : DisplayOut → DisplayOut) : (setDisp s i f).streams = s.streams := rfl
@[simp] theorem setDisp_tus (i : Nat) (f : DisplayOut → DisplayOut) : (setDisp s i f).tus = s.tus := rfl
@[simp] theorem setDisp_cue (i : Nat) (f : DisplayOut → DisplayOut) : (setDisp s i f).cue = s.cue := rfl
@[simp] theorem setDisp_caps (i : Nat) (f : DisplayOut → DisplayOut) : (setDisp s i f).caps = s.caps := rfl
@[simp] theorem setDisp_store (i : Nat) (f : DisplayOut → DisplayOut) : (setDisp s i f).store = s.store := rfl
@[simp] theorem setDisp_reduce (i : Nat) (f : DisplayOut → DisplayOut) : (setDisp s i f).reduce = s.reduce := rfl
@[simp] theorem setDisp_dus (i : Nat) (f : DisplayOut → DisplayOut) : (setDisp s i f).dus = s.dus := rfl
@[simp] theorem setDisp_disps (i : Nat) (f : DisplayOut → DisplayOut) : (setDisp s i f).disps = lmod s.disps i f := rfl
@[simp] theorem setDisp_engines (i : Nat) (f : DisplayOut → DisplayOut) : (setDisp s i f).engines = s.engines := rfl
@[simp] theorem setDisp_clusters (i : Nat) (f : DisplayOut → DisplayOut) : (setDisp s i f).clusters = s.clusters := rfl
@[simp] theorem setDisp_hbm (i : Nat) (f : DisplayOut → DisplayOut) : (setDisp s i f).hbm = s.hbm := rfl
@[simp] theorem setDisp_host (i : Nat) (f : DisplayOut → DisplayOut) : (setDisp s i f).host = s.host := rfl
@[simp] theorem setDisp_aux (i : Nat) (f : DisplayOut → DisplayOut) : (setDisp s i f).aux = s.aux := rfl
@[simp] theorem setDisp_cmps (i : Nat) (f : DisplayOut → DisplayOut) : (setDisp s i f).cmps = s.cmps := rfl
@[simp] theorem setDisp_pdac (i : Nat) (f : DisplayOut → DisplayOut) : (setDisp s i f).pdac = s.pdac := rfl
@[simp] theorem setDisp_tiu (i : Nat) (f : DisplayOut → DisplayOut) : (setDisp s i f).tiu = s.tiu := rfl
@[simp] theorem setDisp_health (i : Nat) (f : DisplayOut → DisplayOut) : (setDisp s i f).health = s.health := rfl
@[simp] theorem setDisp_saved (i : Nat) (f : DisplayOut → DisplayOut) : (setDisp s i f).saved = s.saved := rfl
@[simp] theorem setDisp_pair (i : Nat) (f : DisplayOut → DisplayOut) : (setDisp s i f).pair = s.pair := rfl
@[simp] theorem setDisp_tap (i : Nat) (f : DisplayOut → DisplayOut) : (setDisp s i f).tap = s.tap := rfl
@[simp] theorem setDisp_sec (i : Nat) (f : DisplayOut → DisplayOut) : (setDisp s i f).sec = s.sec := rfl
@[simp] theorem setDisp_fresh (i : Nat) (f : DisplayOut → DisplayOut) : (setDisp s i f).fresh = s.fresh := rfl
@[simp] theorem setDisp_out (i : Nat) (f : DisplayOut → DisplayOut) : (setDisp s i f).out = s.out := rfl

/-! ### `setEng` -/

@[simp] theorem setEng_pending (i : Nat) (f : Engine → Engine) : (setEng s i f).pending = s.pending := rfl
@[simp] theorem setEng_variant (i : Nat) (f : Engine → Engine) : (setEng s i f).variant = s.variant := rfl
@[simp] theorem setEng_die (i : Nat) (f : Engine → Engine) : (setEng s i f).die = s.die := rfl
@[simp] theorem setEng_serial (i : Nat) (f : Engine → Engine) : (setEng s i f).serial = s.serial := rfl
@[simp] theorem setEng_mgmtAddr (i : Nat) (f : Engine → Engine) : (setEng s i f).mgmtAddr = s.mgmtAddr := rfl
@[simp] theorem setEng_ring (i : Nat) (f : Engine → Engine) : (setEng s i f).ring = s.ring := rfl
@[simp] theorem setEng_spi (i : Nat) (f : Engine → Engine) : (setEng s i f).spi = s.spi := rfl
@[simp] theorem setEng_smbus (i : Nat) (f : Engine → Engine) : (setEng s i f).smbus = s.smbus := rfl
@[simp] theorem setEng_ev (i : Nat) (f : Engine → Engine) : (setEng s i f).ev = s.ev := rfl
@[simp] theorem setEng_params (i : Nat) (f : Engine → Engine) : (setEng s i f).params = s.params := rfl
@[simp] theorem setEng_pend (i : Nat) (f : Engine → Engine) : (setEng s i f).pend = s.pend := rfl
@[simp] theorem setEng_cued (i : Nat) (f : Engine → Engine) : (setEng s i f).cued = s.cued := rfl
@[simp] theorem setEng_unplayed (i : Nat) (f : Engine → Engine) : (setEng s i f).unplayed = s.unplayed := rfl
@[simp] theorem setEng_ops (i : Nat) (f : Engine → Engine) : (setEng s i f).ops = s.ops := rfl
@[simp] theorem setEng_nextHandle (i : Nat) (f : Engine → Engine) : (setEng s i f).nextHandle = s.nextHandle := rfl
@[simp] theorem setEng_md (i : Nat) (f : Engine → Engine) : (setEng s i f).md = s.md := rfl
@[simp] theorem setEng_chans (i : Nat) (f : Engine → Engine) : (setEng s i f).chans = s.chans := rfl
@[simp] theorem setEng_clk (i : Nat) (f : Engine → Engine) : (setEng s i f).clk = s.clk := rfl
@[simp] theorem setEng_gates (i : Nat) (f : Engine → Engine) : (setEng s i f).gates = s.gates := rfl
@[simp] theorem setEng_zooms (i : Nat) (f : Engine → Engine) : (setEng s i f).zooms = s.zooms := rfl
@[simp] theorem setEng_streams (i : Nat) (f : Engine → Engine) : (setEng s i f).streams = s.streams := rfl
@[simp] theorem setEng_tus (i : Nat) (f : Engine → Engine) : (setEng s i f).tus = s.tus := rfl
@[simp] theorem setEng_cue (i : Nat) (f : Engine → Engine) : (setEng s i f).cue = s.cue := rfl
@[simp] theorem setEng_caps (i : Nat) (f : Engine → Engine) : (setEng s i f).caps = s.caps := rfl
@[simp] theorem setEng_store (i : Nat) (f : Engine → Engine) : (setEng s i f).store = s.store := rfl
@[simp] theorem setEng_reduce (i : Nat) (f : Engine → Engine) : (setEng s i f).reduce = s.reduce := rfl
@[simp] theorem setEng_dus (i : Nat) (f : Engine → Engine) : (setEng s i f).dus = s.dus := rfl
@[simp] theorem setEng_disps (i : Nat) (f : Engine → Engine) : (setEng s i f).disps = s.disps := rfl
@[simp] theorem setEng_engines (i : Nat) (f : Engine → Engine) : (setEng s i f).engines = tmod s.engines i {} f := rfl
@[simp] theorem setEng_clusters (i : Nat) (f : Engine → Engine) : (setEng s i f).clusters = s.clusters := rfl
@[simp] theorem setEng_hbm (i : Nat) (f : Engine → Engine) : (setEng s i f).hbm = s.hbm := rfl
@[simp] theorem setEng_host (i : Nat) (f : Engine → Engine) : (setEng s i f).host = s.host := rfl
@[simp] theorem setEng_aux (i : Nat) (f : Engine → Engine) : (setEng s i f).aux = s.aux := rfl
@[simp] theorem setEng_cmps (i : Nat) (f : Engine → Engine) : (setEng s i f).cmps = s.cmps := rfl
@[simp] theorem setEng_pdac (i : Nat) (f : Engine → Engine) : (setEng s i f).pdac = s.pdac := rfl
@[simp] theorem setEng_tiu (i : Nat) (f : Engine → Engine) : (setEng s i f).tiu = s.tiu := rfl
@[simp] theorem setEng_health (i : Nat) (f : Engine → Engine) : (setEng s i f).health = s.health := rfl
@[simp] theorem setEng_saved (i : Nat) (f : Engine → Engine) : (setEng s i f).saved = s.saved := rfl
@[simp] theorem setEng_pair (i : Nat) (f : Engine → Engine) : (setEng s i f).pair = s.pair := rfl
@[simp] theorem setEng_tap (i : Nat) (f : Engine → Engine) : (setEng s i f).tap = s.tap := rfl
@[simp] theorem setEng_sec (i : Nat) (f : Engine → Engine) : (setEng s i f).sec = s.sec := rfl
@[simp] theorem setEng_fresh (i : Nat) (f : Engine → Engine) : (setEng s i f).fresh = s.fresh := rfl
@[simp] theorem setEng_out (i : Nat) (f : Engine → Engine) : (setEng s i f).out = s.out := rfl

/-! ### `setCluster` -/

@[simp] theorem setCluster_pending (i : Nat) (f : Cluster → Cluster) : (setCluster s i f).pending = s.pending := rfl
@[simp] theorem setCluster_variant (i : Nat) (f : Cluster → Cluster) : (setCluster s i f).variant = s.variant := rfl
@[simp] theorem setCluster_die (i : Nat) (f : Cluster → Cluster) : (setCluster s i f).die = s.die := rfl
@[simp] theorem setCluster_serial (i : Nat) (f : Cluster → Cluster) : (setCluster s i f).serial = s.serial := rfl
@[simp] theorem setCluster_mgmtAddr (i : Nat) (f : Cluster → Cluster) : (setCluster s i f).mgmtAddr = s.mgmtAddr := rfl
@[simp] theorem setCluster_ring (i : Nat) (f : Cluster → Cluster) : (setCluster s i f).ring = s.ring := rfl
@[simp] theorem setCluster_spi (i : Nat) (f : Cluster → Cluster) : (setCluster s i f).spi = s.spi := rfl
@[simp] theorem setCluster_smbus (i : Nat) (f : Cluster → Cluster) : (setCluster s i f).smbus = s.smbus := rfl
@[simp] theorem setCluster_ev (i : Nat) (f : Cluster → Cluster) : (setCluster s i f).ev = s.ev := rfl
@[simp] theorem setCluster_params (i : Nat) (f : Cluster → Cluster) : (setCluster s i f).params = s.params := rfl
@[simp] theorem setCluster_pend (i : Nat) (f : Cluster → Cluster) : (setCluster s i f).pend = s.pend := rfl
@[simp] theorem setCluster_cued (i : Nat) (f : Cluster → Cluster) : (setCluster s i f).cued = s.cued := rfl
@[simp] theorem setCluster_unplayed (i : Nat) (f : Cluster → Cluster) : (setCluster s i f).unplayed = s.unplayed := rfl
@[simp] theorem setCluster_ops (i : Nat) (f : Cluster → Cluster) : (setCluster s i f).ops = s.ops := rfl
@[simp] theorem setCluster_nextHandle (i : Nat) (f : Cluster → Cluster) : (setCluster s i f).nextHandle = s.nextHandle := rfl
@[simp] theorem setCluster_md (i : Nat) (f : Cluster → Cluster) : (setCluster s i f).md = s.md := rfl
@[simp] theorem setCluster_chans (i : Nat) (f : Cluster → Cluster) : (setCluster s i f).chans = s.chans := rfl
@[simp] theorem setCluster_clk (i : Nat) (f : Cluster → Cluster) : (setCluster s i f).clk = s.clk := rfl
@[simp] theorem setCluster_gates (i : Nat) (f : Cluster → Cluster) : (setCluster s i f).gates = s.gates := rfl
@[simp] theorem setCluster_zooms (i : Nat) (f : Cluster → Cluster) : (setCluster s i f).zooms = s.zooms := rfl
@[simp] theorem setCluster_streams (i : Nat) (f : Cluster → Cluster) : (setCluster s i f).streams = s.streams := rfl
@[simp] theorem setCluster_tus (i : Nat) (f : Cluster → Cluster) : (setCluster s i f).tus = s.tus := rfl
@[simp] theorem setCluster_cue (i : Nat) (f : Cluster → Cluster) : (setCluster s i f).cue = s.cue := rfl
@[simp] theorem setCluster_caps (i : Nat) (f : Cluster → Cluster) : (setCluster s i f).caps = s.caps := rfl
@[simp] theorem setCluster_store (i : Nat) (f : Cluster → Cluster) : (setCluster s i f).store = s.store := rfl
@[simp] theorem setCluster_reduce (i : Nat) (f : Cluster → Cluster) : (setCluster s i f).reduce = s.reduce := rfl
@[simp] theorem setCluster_dus (i : Nat) (f : Cluster → Cluster) : (setCluster s i f).dus = s.dus := rfl
@[simp] theorem setCluster_disps (i : Nat) (f : Cluster → Cluster) : (setCluster s i f).disps = s.disps := rfl
@[simp] theorem setCluster_engines (i : Nat) (f : Cluster → Cluster) : (setCluster s i f).engines = s.engines := rfl
@[simp] theorem setCluster_clusters (i : Nat) (f : Cluster → Cluster) : (setCluster s i f).clusters = tmod s.clusters i {} f := rfl
@[simp] theorem setCluster_hbm (i : Nat) (f : Cluster → Cluster) : (setCluster s i f).hbm = s.hbm := rfl
@[simp] theorem setCluster_host (i : Nat) (f : Cluster → Cluster) : (setCluster s i f).host = s.host := rfl
@[simp] theorem setCluster_aux (i : Nat) (f : Cluster → Cluster) : (setCluster s i f).aux = s.aux := rfl
@[simp] theorem setCluster_cmps (i : Nat) (f : Cluster → Cluster) : (setCluster s i f).cmps = s.cmps := rfl
@[simp] theorem setCluster_pdac (i : Nat) (f : Cluster → Cluster) : (setCluster s i f).pdac = s.pdac := rfl
@[simp] theorem setCluster_tiu (i : Nat) (f : Cluster → Cluster) : (setCluster s i f).tiu = s.tiu := rfl
@[simp] theorem setCluster_health (i : Nat) (f : Cluster → Cluster) : (setCluster s i f).health = s.health := rfl
@[simp] theorem setCluster_saved (i : Nat) (f : Cluster → Cluster) : (setCluster s i f).saved = s.saved := rfl
@[simp] theorem setCluster_pair (i : Nat) (f : Cluster → Cluster) : (setCluster s i f).pair = s.pair := rfl
@[simp] theorem setCluster_tap (i : Nat) (f : Cluster → Cluster) : (setCluster s i f).tap = s.tap := rfl
@[simp] theorem setCluster_sec (i : Nat) (f : Cluster → Cluster) : (setCluster s i f).sec = s.sec := rfl
@[simp] theorem setCluster_fresh (i : Nat) (f : Cluster → Cluster) : (setCluster s i f).fresh = s.fresh := rfl
@[simp] theorem setCluster_out (i : Nat) (f : Cluster → Cluster) : (setCluster s i f).out = s.out := rfl

/-! ### `setStack` -/

@[simp] theorem setStack_pending (i : Nat) (f : HbmStack → HbmStack) : (setStack s i f).pending = s.pending := rfl
@[simp] theorem setStack_variant (i : Nat) (f : HbmStack → HbmStack) : (setStack s i f).variant = s.variant := rfl
@[simp] theorem setStack_die (i : Nat) (f : HbmStack → HbmStack) : (setStack s i f).die = s.die := rfl
@[simp] theorem setStack_serial (i : Nat) (f : HbmStack → HbmStack) : (setStack s i f).serial = s.serial := rfl
@[simp] theorem setStack_mgmtAddr (i : Nat) (f : HbmStack → HbmStack) : (setStack s i f).mgmtAddr = s.mgmtAddr := rfl
@[simp] theorem setStack_ring (i : Nat) (f : HbmStack → HbmStack) : (setStack s i f).ring = s.ring := rfl
@[simp] theorem setStack_spi (i : Nat) (f : HbmStack → HbmStack) : (setStack s i f).spi = s.spi := rfl
@[simp] theorem setStack_smbus (i : Nat) (f : HbmStack → HbmStack) : (setStack s i f).smbus = s.smbus := rfl
@[simp] theorem setStack_ev (i : Nat) (f : HbmStack → HbmStack) : (setStack s i f).ev = s.ev := rfl
@[simp] theorem setStack_params (i : Nat) (f : HbmStack → HbmStack) : (setStack s i f).params = s.params := rfl
@[simp] theorem setStack_pend (i : Nat) (f : HbmStack → HbmStack) : (setStack s i f).pend = s.pend := rfl
@[simp] theorem setStack_cued (i : Nat) (f : HbmStack → HbmStack) : (setStack s i f).cued = s.cued := rfl
@[simp] theorem setStack_unplayed (i : Nat) (f : HbmStack → HbmStack) : (setStack s i f).unplayed = s.unplayed := rfl
@[simp] theorem setStack_ops (i : Nat) (f : HbmStack → HbmStack) : (setStack s i f).ops = s.ops := rfl
@[simp] theorem setStack_nextHandle (i : Nat) (f : HbmStack → HbmStack) : (setStack s i f).nextHandle = s.nextHandle := rfl
@[simp] theorem setStack_md (i : Nat) (f : HbmStack → HbmStack) : (setStack s i f).md = s.md := rfl
@[simp] theorem setStack_chans (i : Nat) (f : HbmStack → HbmStack) : (setStack s i f).chans = s.chans := rfl
@[simp] theorem setStack_clk (i : Nat) (f : HbmStack → HbmStack) : (setStack s i f).clk = s.clk := rfl
@[simp] theorem setStack_gates (i : Nat) (f : HbmStack → HbmStack) : (setStack s i f).gates = s.gates := rfl
@[simp] theorem setStack_zooms (i : Nat) (f : HbmStack → HbmStack) : (setStack s i f).zooms = s.zooms := rfl
@[simp] theorem setStack_streams (i : Nat) (f : HbmStack → HbmStack) : (setStack s i f).streams = s.streams := rfl
@[simp] theorem setStack_tus (i : Nat) (f : HbmStack → HbmStack) : (setStack s i f).tus = s.tus := rfl
@[simp] theorem setStack_cue (i : Nat) (f : HbmStack → HbmStack) : (setStack s i f).cue = s.cue := rfl
@[simp] theorem setStack_caps (i : Nat) (f : HbmStack → HbmStack) : (setStack s i f).caps = s.caps := rfl
@[simp] theorem setStack_store (i : Nat) (f : HbmStack → HbmStack) : (setStack s i f).store = s.store := rfl
@[simp] theorem setStack_reduce (i : Nat) (f : HbmStack → HbmStack) : (setStack s i f).reduce = s.reduce := rfl
@[simp] theorem setStack_dus (i : Nat) (f : HbmStack → HbmStack) : (setStack s i f).dus = s.dus := rfl
@[simp] theorem setStack_disps (i : Nat) (f : HbmStack → HbmStack) : (setStack s i f).disps = s.disps := rfl
@[simp] theorem setStack_engines (i : Nat) (f : HbmStack → HbmStack) : (setStack s i f).engines = s.engines := rfl
@[simp] theorem setStack_clusters (i : Nat) (f : HbmStack → HbmStack) : (setStack s i f).clusters = s.clusters := rfl
@[simp] theorem setStack_hbm (i : Nat) (f : HbmStack → HbmStack) : (setStack s i f).hbm = { s.hbm with hbmStacks := lmod s.hbm.hbmStacks i f } := rfl
@[simp] theorem setStack_host (i : Nat) (f : HbmStack → HbmStack) : (setStack s i f).host = s.host := rfl
@[simp] theorem setStack_aux (i : Nat) (f : HbmStack → HbmStack) : (setStack s i f).aux = s.aux := rfl
@[simp] theorem setStack_cmps (i : Nat) (f : HbmStack → HbmStack) : (setStack s i f).cmps = s.cmps := rfl
@[simp] theorem setStack_pdac (i : Nat) (f : HbmStack → HbmStack) : (setStack s i f).pdac = s.pdac := rfl
@[simp] theorem setStack_tiu (i : Nat) (f : HbmStack → HbmStack) : (setStack s i f).tiu = s.tiu := rfl
@[simp] theorem setStack_health (i : Nat) (f : HbmStack → HbmStack) : (setStack s i f).health = s.health := rfl
@[simp] theorem setStack_saved (i : Nat) (f : HbmStack → HbmStack) : (setStack s i f).saved = s.saved := rfl
@[simp] theorem setStack_pair (i : Nat) (f : HbmStack → HbmStack) : (setStack s i f).pair = s.pair := rfl
@[simp] theorem setStack_tap (i : Nat) (f : HbmStack → HbmStack) : (setStack s i f).tap = s.tap := rfl
@[simp] theorem setStack_sec (i : Nat) (f : HbmStack → HbmStack) : (setStack s i f).sec = s.sec := rfl
@[simp] theorem setStack_fresh (i : Nat) (f : HbmStack → HbmStack) : (setStack s i f).fresh = s.fresh := rfl
@[simp] theorem setStack_out (i : Nat) (f : HbmStack → HbmStack) : (setStack s i f).out = s.out := rfl

/-! ### `setDma` -/

@[simp] theorem setDma_pending (i : Nat) (f : DmaChannel → DmaChannel) : (setDma s i f).pending = s.pending := rfl
@[simp] theorem setDma_variant (i : Nat) (f : DmaChannel → DmaChannel) : (setDma s i f).variant = s.variant := rfl
@[simp] theorem setDma_die (i : Nat) (f : DmaChannel → DmaChannel) : (setDma s i f).die = s.die := rfl
@[simp] theorem setDma_serial (i : Nat) (f : DmaChannel → DmaChannel) : (setDma s i f).serial = s.serial := rfl
@[simp] theorem setDma_mgmtAddr (i : Nat) (f : DmaChannel → DmaChannel) : (setDma s i f).mgmtAddr = s.mgmtAddr := rfl
@[simp] theorem setDma_ring (i : Nat) (f : DmaChannel → DmaChannel) : (setDma s i f).ring = s.ring := rfl
@[simp] theorem setDma_spi (i : Nat) (f : DmaChannel → DmaChannel) : (setDma s i f).spi = s.spi := rfl
@[simp] theorem setDma_smbus (i : Nat) (f : DmaChannel → DmaChannel) : (setDma s i f).smbus = s.smbus := rfl
@[simp] theorem setDma_ev (i : Nat) (f : DmaChannel → DmaChannel) : (setDma s i f).ev = s.ev := rfl
@[simp] theorem setDma_params (i : Nat) (f : DmaChannel → DmaChannel) : (setDma s i f).params = s.params := rfl
@[simp] theorem setDma_pend (i : Nat) (f : DmaChannel → DmaChannel) : (setDma s i f).pend = s.pend := rfl
@[simp] theorem setDma_cued (i : Nat) (f : DmaChannel → DmaChannel) : (setDma s i f).cued = s.cued := rfl
@[simp] theorem setDma_unplayed (i : Nat) (f : DmaChannel → DmaChannel) : (setDma s i f).unplayed = s.unplayed := rfl
@[simp] theorem setDma_ops (i : Nat) (f : DmaChannel → DmaChannel) : (setDma s i f).ops = s.ops := rfl
@[simp] theorem setDma_nextHandle (i : Nat) (f : DmaChannel → DmaChannel) : (setDma s i f).nextHandle = s.nextHandle := rfl
@[simp] theorem setDma_md (i : Nat) (f : DmaChannel → DmaChannel) : (setDma s i f).md = s.md := rfl
@[simp] theorem setDma_chans (i : Nat) (f : DmaChannel → DmaChannel) : (setDma s i f).chans = s.chans := rfl
@[simp] theorem setDma_clk (i : Nat) (f : DmaChannel → DmaChannel) : (setDma s i f).clk = s.clk := rfl
@[simp] theorem setDma_gates (i : Nat) (f : DmaChannel → DmaChannel) : (setDma s i f).gates = s.gates := rfl
@[simp] theorem setDma_zooms (i : Nat) (f : DmaChannel → DmaChannel) : (setDma s i f).zooms = s.zooms := rfl
@[simp] theorem setDma_streams (i : Nat) (f : DmaChannel → DmaChannel) : (setDma s i f).streams = s.streams := rfl
@[simp] theorem setDma_tus (i : Nat) (f : DmaChannel → DmaChannel) : (setDma s i f).tus = s.tus := rfl
@[simp] theorem setDma_cue (i : Nat) (f : DmaChannel → DmaChannel) : (setDma s i f).cue = s.cue := rfl
@[simp] theorem setDma_caps (i : Nat) (f : DmaChannel → DmaChannel) : (setDma s i f).caps = s.caps := rfl
@[simp] theorem setDma_store (i : Nat) (f : DmaChannel → DmaChannel) : (setDma s i f).store = s.store := rfl
@[simp] theorem setDma_reduce (i : Nat) (f : DmaChannel → DmaChannel) : (setDma s i f).reduce = s.reduce := rfl
@[simp] theorem setDma_dus (i : Nat) (f : DmaChannel → DmaChannel) : (setDma s i f).dus = s.dus := rfl
@[simp] theorem setDma_disps (i : Nat) (f : DmaChannel → DmaChannel) : (setDma s i f).disps = s.disps := rfl
@[simp] theorem setDma_engines (i : Nat) (f : DmaChannel → DmaChannel) : (setDma s i f).engines = s.engines := rfl
@[simp] theorem setDma_clusters (i : Nat) (f : DmaChannel → DmaChannel) : (setDma s i f).clusters = s.clusters := rfl
@[simp] theorem setDma_hbm (i : Nat) (f : DmaChannel → DmaChannel) : (setDma s i f).hbm = s.hbm := rfl
@[simp] theorem setDma_host (i : Nat) (f : DmaChannel → DmaChannel) : (setDma s i f).host = { s.host with chans := lmod s.host.chans i f } := rfl
@[simp] theorem setDma_aux (i : Nat) (f : DmaChannel → DmaChannel) : (setDma s i f).aux = s.aux := rfl
@[simp] theorem setDma_cmps (i : Nat) (f : DmaChannel → DmaChannel) : (setDma s i f).cmps = s.cmps := rfl
@[simp] theorem setDma_pdac (i : Nat) (f : DmaChannel → DmaChannel) : (setDma s i f).pdac = s.pdac := rfl
@[simp] theorem setDma_tiu (i : Nat) (f : DmaChannel → DmaChannel) : (setDma s i f).tiu = s.tiu := rfl
@[simp] theorem setDma_health (i : Nat) (f : DmaChannel → DmaChannel) : (setDma s i f).health = s.health := rfl
@[simp] theorem setDma_saved (i : Nat) (f : DmaChannel → DmaChannel) : (setDma s i f).saved = s.saved := rfl
@[simp] theorem setDma_pair (i : Nat) (f : DmaChannel → DmaChannel) : (setDma s i f).pair = s.pair := rfl
@[simp] theorem setDma_tap (i : Nat) (f : DmaChannel → DmaChannel) : (setDma s i f).tap = s.tap := rfl
@[simp] theorem setDma_sec (i : Nat) (f : DmaChannel → DmaChannel) : (setDma s i f).sec = s.sec := rfl
@[simp] theorem setDma_fresh (i : Nat) (f : DmaChannel → DmaChannel) : (setDma s i f).fresh = s.fresh := rfl
@[simp] theorem setDma_out (i : Nat) (f : DmaChannel → DmaChannel) : (setDma s i f).out = s.out := rfl

/-! ### `setPdac` -/

@[simp] theorem setPdac_pending (i : Nat) (f : Pdac → Pdac) : (setPdac s i f).pending = s.pending := rfl
@[simp] theorem setPdac_variant (i : Nat) (f : Pdac → Pdac) : (setPdac s i f).variant = s.variant := rfl
@[simp] theorem setPdac_die (i : Nat) (f : Pdac → Pdac) : (setPdac s i f).die = s.die := rfl
@[simp] theorem setPdac_serial (i : Nat) (f : Pdac → Pdac) : (setPdac s i f).serial = s.serial := rfl
@[simp] theorem setPdac_mgmtAddr (i : Nat) (f : Pdac → Pdac) : (setPdac s i f).mgmtAddr = s.mgmtAddr := rfl
@[simp] theorem setPdac_ring (i : Nat) (f : Pdac → Pdac) : (setPdac s i f).ring = s.ring := rfl
@[simp] theorem setPdac_spi (i : Nat) (f : Pdac → Pdac) : (setPdac s i f).spi = s.spi := rfl
@[simp] theorem setPdac_smbus (i : Nat) (f : Pdac → Pdac) : (setPdac s i f).smbus = s.smbus := rfl
@[simp] theorem setPdac_ev (i : Nat) (f : Pdac → Pdac) : (setPdac s i f).ev = s.ev := rfl
@[simp] theorem setPdac_params (i : Nat) (f : Pdac → Pdac) : (setPdac s i f).params = s.params := rfl
@[simp] theorem setPdac_pend (i : Nat) (f : Pdac → Pdac) : (setPdac s i f).pend = s.pend := rfl
@[simp] theorem setPdac_cued (i : Nat) (f : Pdac → Pdac) : (setPdac s i f).cued = s.cued := rfl
@[simp] theorem setPdac_unplayed (i : Nat) (f : Pdac → Pdac) : (setPdac s i f).unplayed = s.unplayed := rfl
@[simp] theorem setPdac_ops (i : Nat) (f : Pdac → Pdac) : (setPdac s i f).ops = s.ops := rfl
@[simp] theorem setPdac_nextHandle (i : Nat) (f : Pdac → Pdac) : (setPdac s i f).nextHandle = s.nextHandle := rfl
@[simp] theorem setPdac_md (i : Nat) (f : Pdac → Pdac) : (setPdac s i f).md = s.md := rfl
@[simp] theorem setPdac_chans (i : Nat) (f : Pdac → Pdac) : (setPdac s i f).chans = s.chans := rfl
@[simp] theorem setPdac_clk (i : Nat) (f : Pdac → Pdac) : (setPdac s i f).clk = s.clk := rfl
@[simp] theorem setPdac_gates (i : Nat) (f : Pdac → Pdac) : (setPdac s i f).gates = s.gates := rfl
@[simp] theorem setPdac_zooms (i : Nat) (f : Pdac → Pdac) : (setPdac s i f).zooms = s.zooms := rfl
@[simp] theorem setPdac_streams (i : Nat) (f : Pdac → Pdac) : (setPdac s i f).streams = s.streams := rfl
@[simp] theorem setPdac_tus (i : Nat) (f : Pdac → Pdac) : (setPdac s i f).tus = s.tus := rfl
@[simp] theorem setPdac_cue (i : Nat) (f : Pdac → Pdac) : (setPdac s i f).cue = s.cue := rfl
@[simp] theorem setPdac_caps (i : Nat) (f : Pdac → Pdac) : (setPdac s i f).caps = s.caps := rfl
@[simp] theorem setPdac_store (i : Nat) (f : Pdac → Pdac) : (setPdac s i f).store = s.store := rfl
@[simp] theorem setPdac_reduce (i : Nat) (f : Pdac → Pdac) : (setPdac s i f).reduce = s.reduce := rfl
@[simp] theorem setPdac_dus (i : Nat) (f : Pdac → Pdac) : (setPdac s i f).dus = s.dus := rfl
@[simp] theorem setPdac_disps (i : Nat) (f : Pdac → Pdac) : (setPdac s i f).disps = s.disps := rfl
@[simp] theorem setPdac_engines (i : Nat) (f : Pdac → Pdac) : (setPdac s i f).engines = s.engines := rfl
@[simp] theorem setPdac_clusters (i : Nat) (f : Pdac → Pdac) : (setPdac s i f).clusters = s.clusters := rfl
@[simp] theorem setPdac_hbm (i : Nat) (f : Pdac → Pdac) : (setPdac s i f).hbm = s.hbm := rfl
@[simp] theorem setPdac_host (i : Nat) (f : Pdac → Pdac) : (setPdac s i f).host = s.host := rfl
@[simp] theorem setPdac_aux (i : Nat) (f : Pdac → Pdac) : (setPdac s i f).aux = s.aux := rfl
@[simp] theorem setPdac_cmps (i : Nat) (f : Pdac → Pdac) : (setPdac s i f).cmps = s.cmps := rfl
@[simp] theorem setPdac_pdac (i : Nat) (f : Pdac → Pdac) : (setPdac s i f).pdac = { s.pdac with dacs := lmod s.pdac.dacs i f } := rfl
@[simp] theorem setPdac_tiu (i : Nat) (f : Pdac → Pdac) : (setPdac s i f).tiu = s.tiu := rfl
@[simp] theorem setPdac_health (i : Nat) (f : Pdac → Pdac) : (setPdac s i f).health = s.health := rfl
@[simp] theorem setPdac_saved (i : Nat) (f : Pdac → Pdac) : (setPdac s i f).saved = s.saved := rfl
@[simp] theorem setPdac_pair (i : Nat) (f : Pdac → Pdac) : (setPdac s i f).pair = s.pair := rfl
@[simp] theorem setPdac_tap (i : Nat) (f : Pdac → Pdac) : (setPdac s i f).tap = s.tap := rfl
@[simp] theorem setPdac_sec (i : Nat) (f : Pdac → Pdac) : (setPdac s i f).sec = s.sec := rfl
@[simp] theorem setPdac_fresh (i : Nat) (f : Pdac → Pdac) : (setPdac s i f).fresh = s.fresh := rfl
@[simp] theorem setPdac_out (i : Nat) (f : Pdac → Pdac) : (setPdac s i f).out = s.out := rfl

/-! ### `setTiuIn` -/

@[simp] theorem setTiuIn_pending (i : Nat) (f : TiuInput → TiuInput) : (setTiuIn s i f).pending = s.pending := rfl
@[simp] theorem setTiuIn_variant (i : Nat) (f : TiuInput → TiuInput) : (setTiuIn s i f).variant = s.variant := rfl
@[simp] theorem setTiuIn_die (i : Nat) (f : TiuInput → TiuInput) : (setTiuIn s i f).die = s.die := rfl
@[simp] theorem setTiuIn_serial (i : Nat) (f : TiuInput → TiuInput) : (setTiuIn s i f).serial = s.serial := rfl
@[simp] theorem setTiuIn_mgmtAddr (i : Nat) (f : TiuInput → TiuInput) : (setTiuIn s i f).mgmtAddr = s.mgmtAddr := rfl
@[simp] theorem setTiuIn_ring (i : Nat) (f : TiuInput → TiuInput) : (setTiuIn s i f).ring = s.ring := rfl
@[simp] theorem setTiuIn_spi (i : Nat) (f : TiuInput → TiuInput) : (setTiuIn s i f).spi = s.spi := rfl
@[simp] theorem setTiuIn_smbus (i : Nat) (f : TiuInput → TiuInput) : (setTiuIn s i f).smbus = s.smbus := rfl
@[simp] theorem setTiuIn_ev (i : Nat) (f : TiuInput → TiuInput) : (setTiuIn s i f).ev = s.ev := rfl
@[simp] theorem setTiuIn_params (i : Nat) (f : TiuInput → TiuInput) : (setTiuIn s i f).params = s.params := rfl
@[simp] theorem setTiuIn_pend (i : Nat) (f : TiuInput → TiuInput) : (setTiuIn s i f).pend = s.pend := rfl
@[simp] theorem setTiuIn_cued (i : Nat) (f : TiuInput → TiuInput) : (setTiuIn s i f).cued = s.cued := rfl
@[simp] theorem setTiuIn_unplayed (i : Nat) (f : TiuInput → TiuInput) : (setTiuIn s i f).unplayed = s.unplayed := rfl
@[simp] theorem setTiuIn_ops (i : Nat) (f : TiuInput → TiuInput) : (setTiuIn s i f).ops = s.ops := rfl
@[simp] theorem setTiuIn_nextHandle (i : Nat) (f : TiuInput → TiuInput) : (setTiuIn s i f).nextHandle = s.nextHandle := rfl
@[simp] theorem setTiuIn_md (i : Nat) (f : TiuInput → TiuInput) : (setTiuIn s i f).md = s.md := rfl
@[simp] theorem setTiuIn_chans (i : Nat) (f : TiuInput → TiuInput) : (setTiuIn s i f).chans = s.chans := rfl
@[simp] theorem setTiuIn_clk (i : Nat) (f : TiuInput → TiuInput) : (setTiuIn s i f).clk = s.clk := rfl
@[simp] theorem setTiuIn_gates (i : Nat) (f : TiuInput → TiuInput) : (setTiuIn s i f).gates = s.gates := rfl
@[simp] theorem setTiuIn_zooms (i : Nat) (f : TiuInput → TiuInput) : (setTiuIn s i f).zooms = s.zooms := rfl
@[simp] theorem setTiuIn_streams (i : Nat) (f : TiuInput → TiuInput) : (setTiuIn s i f).streams = s.streams := rfl
@[simp] theorem setTiuIn_tus (i : Nat) (f : TiuInput → TiuInput) : (setTiuIn s i f).tus = s.tus := rfl
@[simp] theorem setTiuIn_cue (i : Nat) (f : TiuInput → TiuInput) : (setTiuIn s i f).cue = s.cue := rfl
@[simp] theorem setTiuIn_caps (i : Nat) (f : TiuInput → TiuInput) : (setTiuIn s i f).caps = s.caps := rfl
@[simp] theorem setTiuIn_store (i : Nat) (f : TiuInput → TiuInput) : (setTiuIn s i f).store = s.store := rfl
@[simp] theorem setTiuIn_reduce (i : Nat) (f : TiuInput → TiuInput) : (setTiuIn s i f).reduce = s.reduce := rfl
@[simp] theorem setTiuIn_dus (i : Nat) (f : TiuInput → TiuInput) : (setTiuIn s i f).dus = s.dus := rfl
@[simp] theorem setTiuIn_disps (i : Nat) (f : TiuInput → TiuInput) : (setTiuIn s i f).disps = s.disps := rfl
@[simp] theorem setTiuIn_engines (i : Nat) (f : TiuInput → TiuInput) : (setTiuIn s i f).engines = s.engines := rfl
@[simp] theorem setTiuIn_clusters (i : Nat) (f : TiuInput → TiuInput) : (setTiuIn s i f).clusters = s.clusters := rfl
@[simp] theorem setTiuIn_hbm (i : Nat) (f : TiuInput → TiuInput) : (setTiuIn s i f).hbm = s.hbm := rfl
@[simp] theorem setTiuIn_host (i : Nat) (f : TiuInput → TiuInput) : (setTiuIn s i f).host = s.host := rfl
@[simp] theorem setTiuIn_aux (i : Nat) (f : TiuInput → TiuInput) : (setTiuIn s i f).aux = s.aux := rfl
@[simp] theorem setTiuIn_cmps (i : Nat) (f : TiuInput → TiuInput) : (setTiuIn s i f).cmps = s.cmps := rfl
@[simp] theorem setTiuIn_pdac (i : Nat) (f : TiuInput → TiuInput) : (setTiuIn s i f).pdac = s.pdac := rfl
@[simp] theorem setTiuIn_tiu (i : Nat) (f : TiuInput → TiuInput) : (setTiuIn s i f).tiu = { s.tiu with inputs := lmod s.tiu.inputs i f } := rfl
@[simp] theorem setTiuIn_health (i : Nat) (f : TiuInput → TiuInput) : (setTiuIn s i f).health = s.health := rfl
@[simp] theorem setTiuIn_saved (i : Nat) (f : TiuInput → TiuInput) : (setTiuIn s i f).saved = s.saved := rfl
@[simp] theorem setTiuIn_pair (i : Nat) (f : TiuInput → TiuInput) : (setTiuIn s i f).pair = s.pair := rfl
@[simp] theorem setTiuIn_tap (i : Nat) (f : TiuInput → TiuInput) : (setTiuIn s i f).tap = s.tap := rfl
@[simp] theorem setTiuIn_sec (i : Nat) (f : TiuInput → TiuInput) : (setTiuIn s i f).sec = s.sec := rfl
@[simp] theorem setTiuIn_fresh (i : Nat) (f : TiuInput → TiuInput) : (setTiuIn s i f).fresh = s.fresh := rfl
@[simp] theorem setTiuIn_out (i : Nat) (f : TiuInput → TiuInput) : (setTiuIn s i f).out = s.out := rfl

/-! ### `setHealth` -/

@[simp] theorem setHealth_pending (f : HealthUnit → HealthUnit) : (setHealth s f).pending = s.pending := rfl
@[simp] theorem setHealth_variant (f : HealthUnit → HealthUnit) : (setHealth s f).variant = s.variant := rfl
@[simp] theorem setHealth_die (f : HealthUnit → HealthUnit) : (setHealth s f).die = s.die := rfl
@[simp] theorem setHealth_serial (f : HealthUnit → HealthUnit) : (setHealth s f).serial = s.serial := rfl
@[simp] theorem setHealth_mgmtAddr (f : HealthUnit → HealthUnit) : (setHealth s f).mgmtAddr = s.mgmtAddr := rfl
@[simp] theorem setHealth_ring (f : HealthUnit → HealthUnit) : (setHealth s f).ring = s.ring := rfl
@[simp] theorem setHealth_spi (f : HealthUnit → HealthUnit) : (setHealth s f).spi = s.spi := rfl
@[simp] theorem setHealth_smbus (f : HealthUnit → HealthUnit) : (setHealth s f).smbus = s.smbus := rfl
@[simp] theorem setHealth_ev (f : HealthUnit → HealthUnit) : (setHealth s f).ev = s.ev := rfl
@[simp] theorem setHealth_params (f : HealthUnit → HealthUnit) : (setHealth s f).params = s.params := rfl
@[simp] theorem setHealth_pend (f : HealthUnit → HealthUnit) : (setHealth s f).pend = s.pend := rfl
@[simp] theorem setHealth_cued (f : HealthUnit → HealthUnit) : (setHealth s f).cued = s.cued := rfl
@[simp] theorem setHealth_unplayed (f : HealthUnit → HealthUnit) : (setHealth s f).unplayed = s.unplayed := rfl
@[simp] theorem setHealth_ops (f : HealthUnit → HealthUnit) : (setHealth s f).ops = s.ops := rfl
@[simp] theorem setHealth_nextHandle (f : HealthUnit → HealthUnit) : (setHealth s f).nextHandle = s.nextHandle := rfl
@[simp] theorem setHealth_md (f : HealthUnit → HealthUnit) : (setHealth s f).md = s.md := rfl
@[simp] theorem setHealth_chans (f : HealthUnit → HealthUnit) : (setHealth s f).chans = s.chans := rfl
@[simp] theorem setHealth_clk (f : HealthUnit → HealthUnit) : (setHealth s f).clk = s.clk := rfl
@[simp] theorem setHealth_gates (f : HealthUnit → HealthUnit) : (setHealth s f).gates = s.gates := rfl
@[simp] theorem setHealth_zooms (f : HealthUnit → HealthUnit) : (setHealth s f).zooms = s.zooms := rfl
@[simp] theorem setHealth_streams (f : HealthUnit → HealthUnit) : (setHealth s f).streams = s.streams := rfl
@[simp] theorem setHealth_tus (f : HealthUnit → HealthUnit) : (setHealth s f).tus = s.tus := rfl
@[simp] theorem setHealth_cue (f : HealthUnit → HealthUnit) : (setHealth s f).cue = s.cue := rfl
@[simp] theorem setHealth_caps (f : HealthUnit → HealthUnit) : (setHealth s f).caps = s.caps := rfl
@[simp] theorem setHealth_store (f : HealthUnit → HealthUnit) : (setHealth s f).store = s.store := rfl
@[simp] theorem setHealth_reduce (f : HealthUnit → HealthUnit) : (setHealth s f).reduce = s.reduce := rfl
@[simp] theorem setHealth_dus (f : HealthUnit → HealthUnit) : (setHealth s f).dus = s.dus := rfl
@[simp] theorem setHealth_disps (f : HealthUnit → HealthUnit) : (setHealth s f).disps = s.disps := rfl
@[simp] theorem setHealth_engines (f : HealthUnit → HealthUnit) : (setHealth s f).engines = s.engines := rfl
@[simp] theorem setHealth_clusters (f : HealthUnit → HealthUnit) : (setHealth s f).clusters = s.clusters := rfl
@[simp] theorem setHealth_hbm (f : HealthUnit → HealthUnit) : (setHealth s f).hbm = s.hbm := rfl
@[simp] theorem setHealth_host (f : HealthUnit → HealthUnit) : (setHealth s f).host = s.host := rfl
@[simp] theorem setHealth_aux (f : HealthUnit → HealthUnit) : (setHealth s f).aux = s.aux := rfl
@[simp] theorem setHealth_cmps (f : HealthUnit → HealthUnit) : (setHealth s f).cmps = s.cmps := rfl
@[simp] theorem setHealth_pdac (f : HealthUnit → HealthUnit) : (setHealth s f).pdac = s.pdac := rfl
@[simp] theorem setHealth_tiu (f : HealthUnit → HealthUnit) : (setHealth s f).tiu = s.tiu := rfl
@[simp] theorem setHealth_health (f : HealthUnit → HealthUnit) : (setHealth s f).health = f s.health := rfl
@[simp] theorem setHealth_saved (f : HealthUnit → HealthUnit) : (setHealth s f).saved = s.saved := rfl
@[simp] theorem setHealth_pair (f : HealthUnit → HealthUnit) : (setHealth s f).pair = s.pair := rfl
@[simp] theorem setHealth_tap (f : HealthUnit → HealthUnit) : (setHealth s f).tap = s.tap := rfl
@[simp] theorem setHealth_sec (f : HealthUnit → HealthUnit) : (setHealth s f).sec = s.sec := rfl
@[simp] theorem setHealth_fresh (f : HealthUnit → HealthUnit) : (setHealth s f).fresh = s.fresh := rfl
@[simp] theorem setHealth_out (f : HealthUnit → HealthUnit) : (setHealth s f).out = s.out := rfl

/-! ### `setPair` -/

@[simp] theorem setPair_pending (f : PairUnit → PairUnit) : (setPair s f).pending = s.pending := rfl
@[simp] theorem setPair_variant (f : PairUnit → PairUnit) : (setPair s f).variant = s.variant := rfl
@[simp] theorem setPair_die (f : PairUnit → PairUnit) : (setPair s f).die = s.die := rfl
@[simp] theorem setPair_serial (f : PairUnit → PairUnit) : (setPair s f).serial = s.serial := rfl
@[simp] theorem setPair_mgmtAddr (f : PairUnit → PairUnit) : (setPair s f).mgmtAddr = s.mgmtAddr := rfl
@[simp] theorem setPair_ring (f : PairUnit → PairUnit) : (setPair s f).ring = s.ring := rfl
@[simp] theorem setPair_spi (f : PairUnit → PairUnit) : (setPair s f).spi = s.spi := rfl
@[simp] theorem setPair_smbus (f : PairUnit → PairUnit) : (setPair s f).smbus = s.smbus := rfl
@[simp] theorem setPair_ev (f : PairUnit → PairUnit) : (setPair s f).ev = s.ev := rfl
@[simp] theorem setPair_params (f : PairUnit → PairUnit) : (setPair s f).params = s.params := rfl
@[simp] theorem setPair_pend (f : PairUnit → PairUnit) : (setPair s f).pend = s.pend := rfl
@[simp] theorem setPair_cued (f : PairUnit → PairUnit) : (setPair s f).cued = s.cued := rfl
@[simp] theorem setPair_unplayed (f : PairUnit → PairUnit) : (setPair s f).unplayed = s.unplayed := rfl
@[simp] theorem setPair_ops (f : PairUnit → PairUnit) : (setPair s f).ops = s.ops := rfl
@[simp] theorem setPair_nextHandle (f : PairUnit → PairUnit) : (setPair s f).nextHandle = s.nextHandle := rfl
@[simp] theorem setPair_md (f : PairUnit → PairUnit) : (setPair s f).md = s.md := rfl
@[simp] theorem setPair_chans (f : PairUnit → PairUnit) : (setPair s f).chans = s.chans := rfl
@[simp] theorem setPair_clk (f : PairUnit → PairUnit) : (setPair s f).clk = s.clk := rfl
@[simp] theorem setPair_gates (f : PairUnit → PairUnit) : (setPair s f).gates = s.gates := rfl
@[simp] theorem setPair_zooms (f : PairUnit → PairUnit) : (setPair s f).zooms = s.zooms := rfl
@[simp] theorem setPair_streams (f : PairUnit → PairUnit) : (setPair s f).streams = s.streams := rfl
@[simp] theorem setPair_tus (f : PairUnit → PairUnit) : (setPair s f).tus = s.tus := rfl
@[simp] theorem setPair_cue (f : PairUnit → PairUnit) : (setPair s f).cue = s.cue := rfl
@[simp] theorem setPair_caps (f : PairUnit → PairUnit) : (setPair s f).caps = s.caps := rfl
@[simp] theorem setPair_store (f : PairUnit → PairUnit) : (setPair s f).store = s.store := rfl
@[simp] theorem setPair_reduce (f : PairUnit → PairUnit) : (setPair s f).reduce = s.reduce := rfl
@[simp] theorem setPair_dus (f : PairUnit → PairUnit) : (setPair s f).dus = s.dus := rfl
@[simp] theorem setPair_disps (f : PairUnit → PairUnit) : (setPair s f).disps = s.disps := rfl
@[simp] theorem setPair_engines (f : PairUnit → PairUnit) : (setPair s f).engines = s.engines := rfl
@[simp] theorem setPair_clusters (f : PairUnit → PairUnit) : (setPair s f).clusters = s.clusters := rfl
@[simp] theorem setPair_hbm (f : PairUnit → PairUnit) : (setPair s f).hbm = s.hbm := rfl
@[simp] theorem setPair_host (f : PairUnit → PairUnit) : (setPair s f).host = s.host := rfl
@[simp] theorem setPair_aux (f : PairUnit → PairUnit) : (setPair s f).aux = s.aux := rfl
@[simp] theorem setPair_cmps (f : PairUnit → PairUnit) : (setPair s f).cmps = s.cmps := rfl
@[simp] theorem setPair_pdac (f : PairUnit → PairUnit) : (setPair s f).pdac = s.pdac := rfl
@[simp] theorem setPair_tiu (f : PairUnit → PairUnit) : (setPair s f).tiu = s.tiu := rfl
@[simp] theorem setPair_health (f : PairUnit → PairUnit) : (setPair s f).health = s.health := rfl
@[simp] theorem setPair_saved (f : PairUnit → PairUnit) : (setPair s f).saved = s.saved := rfl
@[simp] theorem setPair_pair (f : PairUnit → PairUnit) : (setPair s f).pair = f s.pair := rfl
@[simp] theorem setPair_tap (f : PairUnit → PairUnit) : (setPair s f).tap = s.tap := rfl
@[simp] theorem setPair_sec (f : PairUnit → PairUnit) : (setPair s f).sec = s.sec := rfl
@[simp] theorem setPair_fresh (f : PairUnit → PairUnit) : (setPair s f).fresh = s.fresh := rfl
@[simp] theorem setPair_out (f : PairUnit → PairUnit) : (setPair s f).out = s.out := rfl

/-! ### `setTap` -/

@[simp] theorem setTap_pending (f : TapUnit → TapUnit) : (setTap s f).pending = s.pending := rfl
@[simp] theorem setTap_variant (f : TapUnit → TapUnit) : (setTap s f).variant = s.variant := rfl
@[simp] theorem setTap_die (f : TapUnit → TapUnit) : (setTap s f).die = s.die := rfl
@[simp] theorem setTap_serial (f : TapUnit → TapUnit) : (setTap s f).serial = s.serial := rfl
@[simp] theorem setTap_mgmtAddr (f : TapUnit → TapUnit) : (setTap s f).mgmtAddr = s.mgmtAddr := rfl
@[simp] theorem setTap_ring (f : TapUnit → TapUnit) : (setTap s f).ring = s.ring := rfl
@[simp] theorem setTap_spi (f : TapUnit → TapUnit) : (setTap s f).spi = s.spi := rfl
@[simp] theorem setTap_smbus (f : TapUnit → TapUnit) : (setTap s f).smbus = s.smbus := rfl
@[simp] theorem setTap_ev (f : TapUnit → TapUnit) : (setTap s f).ev = s.ev := rfl
@[simp] theorem setTap_params (f : TapUnit → TapUnit) : (setTap s f).params = s.params := rfl
@[simp] theorem setTap_pend (f : TapUnit → TapUnit) : (setTap s f).pend = s.pend := rfl
@[simp] theorem setTap_cued (f : TapUnit → TapUnit) : (setTap s f).cued = s.cued := rfl
@[simp] theorem setTap_unplayed (f : TapUnit → TapUnit) : (setTap s f).unplayed = s.unplayed := rfl
@[simp] theorem setTap_ops (f : TapUnit → TapUnit) : (setTap s f).ops = s.ops := rfl
@[simp] theorem setTap_nextHandle (f : TapUnit → TapUnit) : (setTap s f).nextHandle = s.nextHandle := rfl
@[simp] theorem setTap_md (f : TapUnit → TapUnit) : (setTap s f).md = s.md := rfl
@[simp] theorem setTap_chans (f : TapUnit → TapUnit) : (setTap s f).chans = s.chans := rfl
@[simp] theorem setTap_clk (f : TapUnit → TapUnit) : (setTap s f).clk = s.clk := rfl
@[simp] theorem setTap_gates (f : TapUnit → TapUnit) : (setTap s f).gates = s.gates := rfl
@[simp] theorem setTap_zooms (f : TapUnit → TapUnit) : (setTap s f).zooms = s.zooms := rfl
@[simp] theorem setTap_streams (f : TapUnit → TapUnit) : (setTap s f).streams = s.streams := rfl
@[simp] theorem setTap_tus (f : TapUnit → TapUnit) : (setTap s f).tus = s.tus := rfl
@[simp] theorem setTap_cue (f : TapUnit → TapUnit) : (setTap s f).cue = s.cue := rfl
@[simp] theorem setTap_caps (f : TapUnit → TapUnit) : (setTap s f).caps = s.caps := rfl
@[simp] theorem setTap_store (f : TapUnit → TapUnit) : (setTap s f).store = s.store := rfl
@[simp] theorem setTap_reduce (f : TapUnit → TapUnit) : (setTap s f).reduce = s.reduce := rfl
@[simp] theorem setTap_dus (f : TapUnit → TapUnit) : (setTap s f).dus = s.dus := rfl
@[simp] theorem setTap_disps (f : TapUnit → TapUnit) : (setTap s f).disps = s.disps := rfl
@[simp] theorem setTap_engines (f : TapUnit → TapUnit) : (setTap s f).engines = s.engines := rfl
@[simp] theorem setTap_clusters (f : TapUnit → TapUnit) : (setTap s f).clusters = s.clusters := rfl
@[simp] theorem setTap_hbm (f : TapUnit → TapUnit) : (setTap s f).hbm = s.hbm := rfl
@[simp] theorem setTap_host (f : TapUnit → TapUnit) : (setTap s f).host = s.host := rfl
@[simp] theorem setTap_aux (f : TapUnit → TapUnit) : (setTap s f).aux = s.aux := rfl
@[simp] theorem setTap_cmps (f : TapUnit → TapUnit) : (setTap s f).cmps = s.cmps := rfl
@[simp] theorem setTap_pdac (f : TapUnit → TapUnit) : (setTap s f).pdac = s.pdac := rfl
@[simp] theorem setTap_tiu (f : TapUnit → TapUnit) : (setTap s f).tiu = s.tiu := rfl
@[simp] theorem setTap_health (f : TapUnit → TapUnit) : (setTap s f).health = s.health := rfl
@[simp] theorem setTap_saved (f : TapUnit → TapUnit) : (setTap s f).saved = s.saved := rfl
@[simp] theorem setTap_pair (f : TapUnit → TapUnit) : (setTap s f).pair = s.pair := rfl
@[simp] theorem setTap_tap (f : TapUnit → TapUnit) : (setTap s f).tap = f s.tap := rfl
@[simp] theorem setTap_sec (f : TapUnit → TapUnit) : (setTap s f).sec = s.sec := rfl
@[simp] theorem setTap_fresh (f : TapUnit → TapUnit) : (setTap s f).fresh = s.fresh := rfl
@[simp] theorem setTap_out (f : TapUnit → TapUnit) : (setTap s f).out = s.out := rfl

/-! ### `setSec` -/

@[simp] theorem setSec_pending (f : SecUnit → SecUnit) : (setSec s f).pending = s.pending := rfl
@[simp] theorem setSec_variant (f : SecUnit → SecUnit) : (setSec s f).variant = s.variant := rfl
@[simp] theorem setSec_die (f : SecUnit → SecUnit) : (setSec s f).die = s.die := rfl
@[simp] theorem setSec_serial (f : SecUnit → SecUnit) : (setSec s f).serial = s.serial := rfl
@[simp] theorem setSec_mgmtAddr (f : SecUnit → SecUnit) : (setSec s f).mgmtAddr = s.mgmtAddr := rfl
@[simp] theorem setSec_ring (f : SecUnit → SecUnit) : (setSec s f).ring = s.ring := rfl
@[simp] theorem setSec_spi (f : SecUnit → SecUnit) : (setSec s f).spi = s.spi := rfl
@[simp] theorem setSec_smbus (f : SecUnit → SecUnit) : (setSec s f).smbus = s.smbus := rfl
@[simp] theorem setSec_ev (f : SecUnit → SecUnit) : (setSec s f).ev = s.ev := rfl
@[simp] theorem setSec_params (f : SecUnit → SecUnit) : (setSec s f).params = s.params := rfl
@[simp] theorem setSec_pend (f : SecUnit → SecUnit) : (setSec s f).pend = s.pend := rfl
@[simp] theorem setSec_cued (f : SecUnit → SecUnit) : (setSec s f).cued = s.cued := rfl
@[simp] theorem setSec_unplayed (f : SecUnit → SecUnit) : (setSec s f).unplayed = s.unplayed := rfl
@[simp] theorem setSec_ops (f : SecUnit → SecUnit) : (setSec s f).ops = s.ops := rfl
@[simp] theorem setSec_nextHandle (f : SecUnit → SecUnit) : (setSec s f).nextHandle = s.nextHandle := rfl
@[simp] theorem setSec_md (f : SecUnit → SecUnit) : (setSec s f).md = s.md := rfl
@[simp] theorem setSec_chans (f : SecUnit → SecUnit) : (setSec s f).chans = s.chans := rfl
@[simp] theorem setSec_clk (f : SecUnit → SecUnit) : (setSec s f).clk = s.clk := rfl
@[simp] theorem setSec_gates (f : SecUnit → SecUnit) : (setSec s f).gates = s.gates := rfl
@[simp] theorem setSec_zooms (f : SecUnit → SecUnit) : (setSec s f).zooms = s.zooms := rfl
@[simp] theorem setSec_streams (f : SecUnit → SecUnit) : (setSec s f).streams = s.streams := rfl
@[simp] theorem setSec_tus (f : SecUnit → SecUnit) : (setSec s f).tus = s.tus := rfl
@[simp] theorem setSec_cue (f : SecUnit → SecUnit) : (setSec s f).cue = s.cue := rfl
@[simp] theorem setSec_caps (f : SecUnit → SecUnit) : (setSec s f).caps = s.caps := rfl
@[simp] theorem setSec_store (f : SecUnit → SecUnit) : (setSec s f).store = s.store := rfl
@[simp] theorem setSec_reduce (f : SecUnit → SecUnit) : (setSec s f).reduce = s.reduce := rfl
@[simp] theorem setSec_dus (f : SecUnit → SecUnit) : (setSec s f).dus = s.dus := rfl
@[simp] theorem setSec_disps (f : SecUnit → SecUnit) : (setSec s f).disps = s.disps := rfl
@[simp] theorem setSec_engines (f : SecUnit → SecUnit) : (setSec s f).engines = s.engines := rfl
@[simp] theorem setSec_clusters (f : SecUnit → SecUnit) : (setSec s f).clusters = s.clusters := rfl
@[simp] theorem setSec_hbm (f : SecUnit → SecUnit) : (setSec s f).hbm = s.hbm := rfl
@[simp] theorem setSec_host (f : SecUnit → SecUnit) : (setSec s f).host = s.host := rfl
@[simp] theorem setSec_aux (f : SecUnit → SecUnit) : (setSec s f).aux = s.aux := rfl
@[simp] theorem setSec_cmps (f : SecUnit → SecUnit) : (setSec s f).cmps = s.cmps := rfl
@[simp] theorem setSec_pdac (f : SecUnit → SecUnit) : (setSec s f).pdac = s.pdac := rfl
@[simp] theorem setSec_tiu (f : SecUnit → SecUnit) : (setSec s f).tiu = s.tiu := rfl
@[simp] theorem setSec_health (f : SecUnit → SecUnit) : (setSec s f).health = s.health := rfl
@[simp] theorem setSec_saved (f : SecUnit → SecUnit) : (setSec s f).saved = s.saved := rfl
@[simp] theorem setSec_pair (f : SecUnit → SecUnit) : (setSec s f).pair = s.pair := rfl
@[simp] theorem setSec_tap (f : SecUnit → SecUnit) : (setSec s f).tap = s.tap := rfl
@[simp] theorem setSec_sec (f : SecUnit → SecUnit) : (setSec s f).sec = f s.sec := rfl
@[simp] theorem setSec_fresh (f : SecUnit → SecUnit) : (setSec s f).fresh = s.fresh := rfl
@[simp] theorem setSec_out (f : SecUnit → SecUnit) : (setSec s f).out = s.out := rfl

/-! ### `emit` -/

@[simp] theorem emit_pending (o : Output) : (emit s o).pending = s.pending := rfl
@[simp] theorem emit_variant (o : Output) : (emit s o).variant = s.variant := rfl
@[simp] theorem emit_die (o : Output) : (emit s o).die = s.die := rfl
@[simp] theorem emit_serial (o : Output) : (emit s o).serial = s.serial := rfl
@[simp] theorem emit_mgmtAddr (o : Output) : (emit s o).mgmtAddr = s.mgmtAddr := rfl
@[simp] theorem emit_ring (o : Output) : (emit s o).ring = s.ring := rfl
@[simp] theorem emit_spi (o : Output) : (emit s o).spi = s.spi := rfl
@[simp] theorem emit_smbus (o : Output) : (emit s o).smbus = s.smbus := rfl
@[simp] theorem emit_ev (o : Output) : (emit s o).ev = s.ev := rfl
@[simp] theorem emit_params (o : Output) : (emit s o).params = s.params := rfl
@[simp] theorem emit_pend (o : Output) : (emit s o).pend = s.pend := rfl
@[simp] theorem emit_cued (o : Output) : (emit s o).cued = s.cued := rfl
@[simp] theorem emit_unplayed (o : Output) : (emit s o).unplayed = s.unplayed := rfl
@[simp] theorem emit_ops (o : Output) : (emit s o).ops = s.ops := rfl
@[simp] theorem emit_nextHandle (o : Output) : (emit s o).nextHandle = s.nextHandle := rfl
@[simp] theorem emit_md (o : Output) : (emit s o).md = s.md := rfl
@[simp] theorem emit_chans (o : Output) : (emit s o).chans = s.chans := rfl
@[simp] theorem emit_clk (o : Output) : (emit s o).clk = s.clk := rfl
@[simp] theorem emit_gates (o : Output) : (emit s o).gates = s.gates := rfl
@[simp] theorem emit_zooms (o : Output) : (emit s o).zooms = s.zooms := rfl
@[simp] theorem emit_streams (o : Output) : (emit s o).streams = s.streams := rfl
@[simp] theorem emit_tus (o : Output) : (emit s o).tus = s.tus := rfl
@[simp] theorem emit_cue (o : Output) : (emit s o).cue = s.cue := rfl
@[simp] theorem emit_caps (o : Output) : (emit s o).caps = s.caps := rfl
@[simp] theorem emit_store (o : Output) : (emit s o).store = s.store := rfl
@[simp] theorem emit_reduce (o : Output) : (emit s o).reduce = s.reduce := rfl
@[simp] theorem emit_dus (o : Output) : (emit s o).dus = s.dus := rfl
@[simp] theorem emit_disps (o : Output) : (emit s o).disps = s.disps := rfl
@[simp] theorem emit_engines (o : Output) : (emit s o).engines = s.engines := rfl
@[simp] theorem emit_clusters (o : Output) : (emit s o).clusters = s.clusters := rfl
@[simp] theorem emit_hbm (o : Output) : (emit s o).hbm = s.hbm := rfl
@[simp] theorem emit_host (o : Output) : (emit s o).host = s.host := rfl
@[simp] theorem emit_aux (o : Output) : (emit s o).aux = s.aux := rfl
@[simp] theorem emit_cmps (o : Output) : (emit s o).cmps = s.cmps := rfl
@[simp] theorem emit_pdac (o : Output) : (emit s o).pdac = s.pdac := rfl
@[simp] theorem emit_tiu (o : Output) : (emit s o).tiu = s.tiu := rfl
@[simp] theorem emit_health (o : Output) : (emit s o).health = s.health := rfl
@[simp] theorem emit_saved (o : Output) : (emit s o).saved = s.saved := rfl
@[simp] theorem emit_pair (o : Output) : (emit s o).pair = s.pair := rfl
@[simp] theorem emit_tap (o : Output) : (emit s o).tap = s.tap := rfl
@[simp] theorem emit_sec (o : Output) : (emit s o).sec = s.sec := rfl
@[simp] theorem emit_fresh (o : Output) : (emit s o).fresh = s.fresh := rfl
@[simp] theorem emit_out (o : Output) : (emit s o).out = s.out ++ [o] := rfl

/-! ### `setMbx` -/

@[simp] theorem setMbx_pending (m : Mbx) (f : Mailbox → Mailbox) : (setMbx s m f).pending = s.pending := by cases m <;> rfl
@[simp] theorem setMbx_variant (m : Mbx) (f : Mailbox → Mailbox) : (setMbx s m f).variant = s.variant := by cases m <;> rfl
@[simp] theorem setMbx_die (m : Mbx) (f : Mailbox → Mailbox) : (setMbx s m f).die = s.die := by cases m <;> rfl
@[simp] theorem setMbx_serial (m : Mbx) (f : Mailbox → Mailbox) : (setMbx s m f).serial = s.serial := by cases m <;> rfl
@[simp] theorem setMbx_mgmtAddr (m : Mbx) (f : Mailbox → Mailbox) : (setMbx s m f).mgmtAddr = s.mgmtAddr := by cases m <;> rfl
@[simp] theorem setMbx_ring (m : Mbx) (f : Mailbox → Mailbox) : (setMbx s m f).ring = s.ring := by cases m <;> rfl
@[simp] theorem setMbx_ev (m : Mbx) (f : Mailbox → Mailbox) : (setMbx s m f).ev = s.ev := by cases m <;> rfl
@[simp] theorem setMbx_params (m : Mbx) (f : Mailbox → Mailbox) : (setMbx s m f).params = s.params := by cases m <;> rfl
@[simp] theorem setMbx_pend (m : Mbx) (f : Mailbox → Mailbox) : (setMbx s m f).pend = s.pend := by cases m <;> rfl
@[simp] theorem setMbx_cued (m : Mbx) (f : Mailbox → Mailbox) : (setMbx s m f).cued = s.cued := by cases m <;> rfl
@[simp] theorem setMbx_unplayed (m : Mbx) (f : Mailbox → Mailbox) : (setMbx s m f).unplayed = s.unplayed := by cases m <;> rfl
@[simp] theorem setMbx_ops (m : Mbx) (f : Mailbox → Mailbox) : (setMbx s m f).ops = s.ops := by cases m <;> rfl
@[simp] theorem setMbx_nextHandle (m : Mbx) (f : Mailbox → Mailbox) : (setMbx s m f).nextHandle = s.nextHandle := by cases m <;> rfl
@[simp] theorem setMbx_md (m : Mbx) (f : Mailbox → Mailbox) : (setMbx s m f).md = s.md := by cases m <;> rfl
@[simp] theorem setMbx_chans (m : Mbx) (f : Mailbox → Mailbox) : (setMbx s m f).chans = s.chans := by cases m <;> rfl
@[simp] theorem setMbx_clk (m : Mbx) (f : Mailbox → Mailbox) : (setMbx s m f).clk = s.clk := by cases m <;> rfl
@[simp] theorem setMbx_gates (m : Mbx) (f : Mailbox → Mailbox) : (setMbx s m f).gates = s.gates := by cases m <;> rfl
@[simp] theorem setMbx_zooms (m : Mbx) (f : Mailbox → Mailbox) : (setMbx s m f).zooms = s.zooms := by cases m <;> rfl
@[simp] theorem setMbx_streams (m : Mbx) (f : Mailbox → Mailbox) : (setMbx s m f).streams = s.streams := by cases m <;> rfl
@[simp] theorem setMbx_tus (m : Mbx) (f : Mailbox → Mailbox) : (setMbx s m f).tus = s.tus := by cases m <;> rfl
@[simp] theorem setMbx_cue (m : Mbx) (f : Mailbox → Mailbox) : (setMbx s m f).cue = s.cue := by cases m <;> rfl
@[simp] theorem setMbx_caps (m : Mbx) (f : Mailbox → Mailbox) : (setMbx s m f).caps = s.caps := by cases m <;> rfl
@[simp] theorem setMbx_store (m : Mbx) (f : Mailbox → Mailbox) : (setMbx s m f).store = s.store := by cases m <;> rfl
@[simp] theorem setMbx_reduce (m : Mbx) (f : Mailbox → Mailbox) : (setMbx s m f).reduce = s.reduce := by cases m <;> rfl
@[simp] theorem setMbx_dus (m : Mbx) (f : Mailbox → Mailbox) : (setMbx s m f).dus = s.dus := by cases m <;> rfl
@[simp] theorem setMbx_disps (m : Mbx) (f : Mailbox → Mailbox) : (setMbx s m f).disps = s.disps := by cases m <;> rfl
@[simp] theorem setMbx_engines (m : Mbx) (f : Mailbox → Mailbox) : (setMbx s m f).engines = s.engines := by cases m <;> rfl
@[simp] theorem setMbx_clusters (m : Mbx) (f : Mailbox → Mailbox) : (setMbx s m f).clusters = s.clusters := by cases m <;> rfl
@[simp] theorem setMbx_hbm (m : Mbx) (f : Mailbox → Mailbox) : (setMbx s m f).hbm = s.hbm := by cases m <;> rfl
@[simp] theorem setMbx_host (m : Mbx) (f : Mailbox → Mailbox) : (setMbx s m f).host = s.host := by cases m <;> rfl
@[simp] theorem setMbx_aux (m : Mbx) (f : Mailbox → Mailbox) : (setMbx s m f).aux = s.aux := by cases m <;> rfl
@[simp] theorem setMbx_cmps (m : Mbx) (f : Mailbox → Mailbox) : (setMbx s m f).cmps = s.cmps := by cases m <;> rfl
@[simp] theorem setMbx_pdac (m : Mbx) (f : Mailbox → Mailbox) : (setMbx s m f).pdac = s.pdac := by cases m <;> rfl
@[simp] theorem setMbx_tiu (m : Mbx) (f : Mailbox → Mailbox) : (setMbx s m f).tiu = s.tiu := by cases m <;> rfl
@[simp] theorem setMbx_health (m : Mbx) (f : Mailbox → Mailbox) : (setMbx s m f).health = s.health := by cases m <;> rfl
@[simp] theorem setMbx_saved (m : Mbx) (f : Mailbox → Mailbox) : (setMbx s m f).saved = s.saved := by cases m <;> rfl
@[simp] theorem setMbx_pair (m : Mbx) (f : Mailbox → Mailbox) : (setMbx s m f).pair = s.pair := by cases m <;> rfl
@[simp] theorem setMbx_tap (m : Mbx) (f : Mailbox → Mailbox) : (setMbx s m f).tap = s.tap := by cases m <;> rfl
@[simp] theorem setMbx_sec (m : Mbx) (f : Mailbox → Mailbox) : (setMbx s m f).sec = s.sec := by cases m <;> rfl
@[simp] theorem setMbx_fresh (m : Mbx) (f : Mailbox → Mailbox) : (setMbx s m f).fresh = s.fresh := by cases m <;> rfl
@[simp] theorem setMbx_out (m : Mbx) (f : Mailbox → Mailbox) : (setMbx s m f).out = s.out := by cases m <;> rfl
@[simp] theorem setMbx_same (m : Mbx) (f : Mailbox → Mailbox) : mbx (setMbx s m f) m = f (mbx s m) := by cases m <;> rfl

/-! ### `takeFree` and `schedule` -/

@[simp] theorem takeFree_value : (takeFree s).1 = Config.free s.fresh := rfl
@[simp] theorem takeFree_state : (takeFree s).2 = { s with fresh := s.fresh + 1 } := rfl

end Sys2Proof.Machine
end

