-- ==== Sys2Proof/WellFormed.lean ====
section
/-! DEFINITION. When a command's operands are ones that the interface can carry. What the device itself answers or
ignores (a wrong length field, a reserved value) is well formed: its meaning handles it. -/
namespace Sys2Proof

/-- A packet holds at most 4,080 payload bytes (R56). -/
def Packet.wf (p : Packet) : Bool := decide (p.payload.length ≤ 4080)

/-- A fetch that failed has a status other than OK. -/
def Fetched.wf : Fetched → Bool
  | .bytes _ => true
  | .halted st => decide (st ≠ 0)

/-- The two address straps are sampled (R88). -/
def BootFacts.wf (f : BootFacts) : Bool := decide (f.mgmtAddr < 4)

/-- A block read has 4,096 bytes, or none where it cannot be read. -/
def blockWf (b : List (BitVec 8)) : Bool := b.isEmpty || decide (b.length = 4096)

/-- A mount reports each of the eight ports with its first two blocks (R273, R275). -/
def MountFacts.wf (f : MountFacts) : Bool :=
  decide (f.ports.length = 8) && f.ports.all (fun p => blockWf p.superA && blockWf p.superB)

/-- A marker names a range (Table 1-6). -/
def GapMarker.wf (m : GapMarker) : Bool := decide (m.first ≤ m.last) && decide (m.last < 2 ^ 64)

/-- A peer has one of three roles and one of eight modes. -/
def PeerFacts.wf (x : PeerFacts) : Bool := decide (x.role < 3) && decide (x.mode < 8)

/-- A check extent covers 65,536 samples (R514). -/
def CheckFacts.wf (e : CheckFacts) : Bool := decide (e.codes.length = 65536) && decide (e.flags.length = 65536)

/-- Parameters of an image hold at most 64 bits. -/
def ImagePart.wf : ImagePart → Bool
  | .params l => l.all (fun x => decide (x.2 < 2 ^ 64))
  | .table opcode inst _ => decide (opcode < 2 ^ 16) && decide (inst < 2 ^ 16)

/-- A sector holds 65,536 bytes, or fewer at the end of an image; an export item is not empty. -/
def StepFacts.wf : StepFacts → Bool
  | .failed st => decide (st ≠ 0)
  | .sector bytes => decide (1 ≤ bytes.length) && decide (bytes.length ≤ 65536)
  | .item bytes => decide (1 ≤ bytes.length)
  | .range fs _ => decide (fs < 4)
  | .marker m => m.wf
  | .done | .coefficients _ | .test _ | .verified _ | .sample _ _ | .monitors _ | .regulated => true

/-- The two calibration readings differ, so that the interpolation divides (R464). -/
def RawStamp.wf (x : RawStamp) : Bool := decide (x.r1 ≠ x.r2) && decide (x.lastR1 ≠ x.lastR2)

/-- A write carries its data (R394). -/
def HbmReq.wf (r : HbmReq) : Bool := if r.write then decide (r.data.length = r.len) else r.data.isEmpty

/-- STATUS_WORD has 16 bits (R478). -/
def PmbusFacts.wf (f : PmbusFacts) : Bool := decide (f.status < 2 ^ 16)

/-- A sink answers with 0, 1, 2 or 4 lanes (R314). -/
def SinkFacts.wf (x : SinkFacts) : Bool := [0, 1, 2, 4].contains x.lanes

/-- The command's operands are ones that its sender can send. -/
def Instr.wf : Instr → Bool
  | .inventory p => p.wf
  | .getParam p => p.wf
  | .setParam p => p.wf
  | .setMode p => p.wf
  | .start p => p.wf
  | .stop p => p.wf
  | .queryOp p => p.wf
  | .suspendOp p => p.wf
  | .resumeOp p => p.wf
  | .cancelOp p => p.wf
  | .clearEvents p => p.wf
  | .errlogRead p => p.wf
  | .errlogClear p => p.wf
  | .convCalRead p => p.wf
  | .convCalLoad p => p.wf
  | .calibrateConverters p => p.wf
  | .clkSetTime p => p.wf
  | .xfWindowLoad p => p.wf
  | .xfWindowRead p => p.wf
  | .cueLoad p => p.wf
  | .cueTask p => p.wf
  | .maskLoad p => p.wf
  | .maskSwap p => p.wf
  | .cueHost p => p.wf
  | .cueRead p => p.wf
  | .maskRead p => p.wf
  | .capArm p => p.wf
  | .capDisarm p => p.wf
  | .storeFormat p => p.wf
  | .storeExport p => p.wf
  | .replay p => p.wf
  | .storeMount p f => p.wf && f.wf
  | .storeUnmount p => p.wf
  | .storeList p => p.wf
  | .storeDelete p => p.wf
  | .duPaletteLoad p => p.wf
  | .duPaletteSwap p => p.wf
  | .duClear p => p.wf
  | .duMapLoad p => p.wf
  | .duLatticeRead p => p.wf
  | .dispClutLoad p => p.wf
  | .dispEdidRead p edid => p.wf && decide (edid.length ≤ 4096)
  | .aeFaultRead p => p.wf
  | .aeResume p => p.wf
  | .aeLoad p data => p.wf && data.wf
  | .aeStart p => p.wf
  | .aeStop p => p.wf
  | .aeSignal p => p.wf
  | .hbmRehash p => p.wf
  | .scrubFull p => p.wf
  | .dmaChain p => p.wf
  | .dmaStop p => p.wf
  | .dmaCopy p data => p.wf && data.wf
  | .tiuAnchorRead p => p.wf
  | .marginReplan p => p.wf
  | .hmAgeingRead p => p.wf
  | .pairResync p => p.wf
  | .pairAlign p => p.wf
  | .selfTest p => p.wf
  | .dbgChallenge p => p.wf
  | .dbgUnlock p => p.wf
  | .keyGenerate p => p.wf
  | .keyImport p => p.wf
  | .keyErase p => p.wf
  | .keyImportPubkey p => p.wf
  | .fwUpdate p => p.wf
  | .fwCommit p => p.wf
  | .cmdDoorbell _ u => u.all (fun x => x.2.wf)
  | .registerWrite _ _ bytes => decide (1 ≤ bytes.length)
  | .smbusBlockTransfer w bytes count _ _ _ => if w then bytes.length = count else bytes.isEmpty
  | .rstNRelease f => f.wf
  | .bootComplete hbmStacks _ m gauges _ => decide (hbmStacks.length = 4) && m.wf && decide (gauges.length = 64)
  | .opStepBoundary handle f => decide (handle < 2 ^ 32) && f.wf
  | .ppsEdge _ st _ _ => st.wf
  | .producerBufferFull _ first => decide (first < 2 ^ 64)
  | .gap _ resume => decide (resume < 2 ^ 64)
  | .gapMarkerReceived _ m => m.wf
  | .hpdPlug _ sink => sink.wf
  | .irqHpd _ _ sink => sink.wf
  | .auxSlotResult codes _ checks => decide (1 ≤ codes.length) && (checks.isEmpty || decide (checks.length = 16))
  | .cmpCrossing _ _ st _ => st.wf
  | .evEdge _ _ st _ => st.wf
  | .gaugeReading factors => decide (factors.length = 64)
  | .shedLevelRecovery devs => decide (devs.length = 4)
  | .pmbusPoll _ f => f.wf
  | .hbmRequest _ arrivals _ _ => arrivals.all HbmReq.wf
  | .rowIdleClose bank => decide (bank < 6144)
  | .descriptorFetch _ d => d.wf
  | .descriptorRepoll _ d => d.wf
  | .heartbeat peer => peer.all PeerFacts.wf
  | .pairLinkUp lanes role term serial => [4, 8].contains lanes && decide (role < 3) && decide (term < 2 ^ 32) && decide (serial < 2 ^ 64)
  | .cueItem _ _ ord => decide (ord < 2 ^ 64)
  | .config opcode st p data => decide (opcode < 2 ^ 16) && decide (st < 2 ^ 16) && p.wf && data.wf
  | .journalHead offs => offs.all (fun x => decide (x.1 < 16))
  | .checkExtent _ x e => decide (x < 2 ^ 64) && e.wf
  | .image part => part.wf
  | .bankRefresh bank => decide (bank < 6144)
  | .powerOnMonitorRelease f => f.wf
  | .cmdResync | .cmdEn _ | .rplEn _ | .evtEn _ | .rplHead _ | .evtHead _ | .heldReplyPosted | .eventsLost _ |
    .go _ _ | .rplAck _ | .evtWindowRemove _ | .smbusWriteWord _ _ _ _ | .dmaKick _ | .busMasterEnable _ | .rstNAssert
    | .powerLoss | .watchdogReset | .hostLinkReset _ | .hostLinkTrained _ _ _ | .clrNFall | .clrNRise | .wakeBall |
    .wakeTimerExpiry | .modeChanged | .cuePointApply | .refinLost _ | .refinQualified _ | .xoLost _ | .xoPresent _ |
    .clkLock _ _ | .ppsLost | .pgPulse _ _ | .trgOutPulse _ _ | .pdacUpdate _ _ | .pdacCompliance _ _ |
    .heldEventWindowEnd _ _ | .convLos _ | .bgcalUpdate _ | .convCalStale _ _ | .zoomBlock _ | .frameRecord _ |
    .itemRehearse | .sheetPlay _ | .cueTimeout _ | .cueTimerTick _ | .recordRollover _ | .rateStepDecision _ |
    .captureRateStep _ | .extentClose _ | .extentWriteCompletion _ _ | .storeWriteFailed _ _ _ _ | .storeMemberLost _
    | .journalWrite | .checkpoint | .fedFrame _ | .frameStart _ | .hpdUnplug _ | .shedLevelEntry _ _ _ |
    .ioRailWarning _ | .thermalTrip | .thermalWarn _ _ | .regionSkew _ _ _ | .regulationReached _ _ |
    .replanAutoStart _ | .ageingEntry | .lifeMinute _ | .aliveCount | .unitErrorDetected _ _ _ _ | .errorRecovery |
    .scrubLine _ _ _ | .bankImbalance | .eyeRecentre _ | .selfRefreshEntry _ | .selfRefreshExit _ |
    .descriptorComplete _ | .dmaFlushTimeout _ | .storeBufferDrain _ | .signalTaken _ | .loadDataArrival _ | .mbData _
    | .ipData _ | .opData _ | .opEnd _ | .sigsend _ | .nop _ | .dmac _ _ _ _ | .qmac _ _ _ _ | .rmac _ _ _ _ |
    .accrd _ _ _ _ | .accrd18 _ _ _ _ | .accld _ _ _ _ | .accclr _ _ _ _ | .add _ _ _ _ | .adds _ _ _ _ | .sub _ _ _ _
    | .subs _ _ _ _ | .and _ _ _ _ | .or _ _ _ _ | .xor _ _ _ _ | .mov _ _ _ _ | .shli _ _ _ _ | .shri _ _ _ _ |
    .sari _ _ _ _ | .rndi _ _ _ _ | .sat18i _ _ _ _ | .cmp _ _ _ _ | .cmpu _ _ _ _ | .min _ _ _ _ | .max _ _ _ _ |
    .abs _ _ _ _ | .neg _ _ _ _ | .pack16 _ _ _ _ | .addi _ _ _ _ | .movi _ _ _ _ | .ldw _ _ _ _ _ | .ldh _ _ _ _ _ |
    .ldhu _ _ _ _ _ | .ldt _ _ _ _ _ | .ldp _ _ _ _ _ | .ldc16 _ _ _ _ _ | .ldc24 _ _ _ _ _ | .stw _ _ _ _ _ |
    .sth _ _ _ _ _ | .stt _ _ _ _ _ | .stp _ _ _ _ _ | .stc16 _ _ _ _ _ | .gather _ _ _ _ _ | .pref _ _ _ _ _ |
    .cadds _ _ _ _ _ | .cmax _ _ _ _ _ | .cmin _ _ _ _ _ | .cor _ _ _ _ _ | .adda _ _ _ | .suba _ _ _ | .cira _ _ _ |
    .br _ _ | .bz _ _ | .bnz _ _ | .bn _ _ | .bnn _ _ | .blc _ _ | .jal _ _ | .jr _ _ | .rets _ _ | .rete _ _ |
    .halt _ _ | .safept _ _ | .sigwait _ _ | .evt _ _ | .wmark _ _ | .gets _ _ | .puts _ _ | .mova _ _ | .movad _ _ |
    .movm _ _ | .fence _ _ | .brk _ _ | .repeatN _ _ _ | .ldiD _ _ _ | .ldiA _ _ _ | .ldiM _ _ _ | .ldiB _ _ _ |
    .ldiL _ _ _ | .ldiLC _ _ _ | .extest _ | .samplePreload _ | .idcode _ | .highz _ | .clamp _ | .extestPulse _ |
    .extestTrain _ | .dbgAccess _ | .bypass _ | .testLogicReset | .aliveToggle | .peerAliveStopped | .heartbeatLost |
    .promote | .laneDrop | .rateStep _ _ _ | .align _ _ | .pairAligned | .verdict _ _ | .sampleWord _ _ _ |
    .scanInstant _ _ _ | .completionTimeout _ | .irqHoldoffExpiry _ | .peerAliveEdge | .pairLinkDown |
    .hostLinkRetrain _ _ _ | .safeptDeadline _ => true

end Sys2Proof
end

