-- ==== Sys2Proof/Tests/Slice0.lean ====
section
/-! SUPPORT. Tests: each check of well-formedness refuses an ill-formed term; the manual's worked engine bundles are read as
the rows they stand for; single steps against the manual's own figures; and, for each statement with hypotheses, a
theorem `witness_<statement>` that shows states and operands which meet the hypotheses of its clauses. -/
namespace Sys2Proof.Tests
open Sys2Proof Sys2Proof.Machine

set_option maxRecDepth 20000
set_option Elab.async false

/-! ### Small states and packets -/

/-- The next state, or the reset state where there is none. -/
def after (o : Host.Outcome State Fault Refusal) : State :=
  match o with
  | .next s => s
  | _ => State.reset

/-- A well-framed packet with its check. -/
def pk (op inst : Nat) (pl : List Byte) (flags : BitVec 8 := 0) (src : Source := .spi) : Packet :=
  let p : Packet := { src, flags, slots := BitVec.ofNat 8 (slotsOf pl.length), tag := 7, inst := BitVec.ofNat 16 inst
                      len := BitVec.ofNat 32 pl.length, check := 0, payload := pl }
  { p with check := BitVec.ofNat 32 (crc32c (hdr12 op p ++ payloadOf p)) }

/-- The SPI mailbox holds a packet that the host has handed over. -/
def give (op : Nat) (p : Packet) (s : State) : State :=
  { s with spi := { s.spi with busy := true, cmdBuf := memWrite [] 0 (packetBytes op p) } }

/-- Booted, in a mode. -/
def inMode (m : Mode) : State :=
  { State.reset with
    md := { State.reset.md with mode := m, transit := none, rstLow := false, everIdle := true }
    clk := { State.reset.clk with source := 1, refinOk := true, refinFreq := 1 } }

/-- ANALYSE with CH0 running at ordinal 1,000 on locked clocks. -/
def live : State :=
  let s := setChan (inMode .analyse) 0 (fun c => { c with running := true, count := 1000 })
  { s with cue := { s.cue with played := 1000 }
           clk := { s.clk with plls := s.clk.plls.map (fun p => { p with powered := true, lock := true, started := true }) } }

/-- The command ring presents a packet. -/
def ringUp (s : State) : State :=
  { s with host := { s.host with bme := true }
           ring := { s.ring with cmdEn := true, cmdSize := 6, doorbell := 1, rplEn := true, rplSize := 6, evtEn := true, evtSize := 6 } }

/-- A packet of a spec is accepted from the SPI mailbox. -/
def acc (c : CmdSpec) (inst : Nat) (own : List Byte) (s : State) : Bool :=
  accepted c (pk c.opcode inst own) (give c.opcode (pk c.opcode inst own) s)

/-- The same with AT_ORDINAL. -/
def accAt (c : CmdSpec) (inst ord : Nat) (own : List Byte) (s : State) : Bool :=
  let p := pk c.opcode inst (leBytes 8 ord ++ own) 1
  accepted c p (give c.opcode p s)

/-- A packet of SET_PARAM. -/
def pkSet (l : List (Nat × Nat × Nat)) : Packet :=
  pk 3 0 (leBytes 2 l.length ++ zeros 6 ++ (l.map (fun e => leBytes 2 e.1 ++ leBytes 2 e.2.1 ++ zeros 4 ++ leBytes 8 e.2.2)).flatten)

/-- A live operation. -/
def withOp (o : LongOp) (s : State) : State := { s with ops := s.ops ++ [o], nextHandle := o.handle + 1 }

/-- A stamp of an edge. -/
def stamp0 : RawStamp := { coarse := 5, r := 1500, r1 := 1000, r2 := 2000, factory := 0, lastR1 := 1000, lastR2 := 2000 }

/-! ### Witnesses: the machine, rings and mailboxes -/

/-- A packet of the ring whose check is wrong. -/
def badPk : Packet := { pk 1 0 [] 0 .ring with check := 0 }

theorem witness_StepRunsFront : ({ State.reset with pending := [.powerLoss, .cmdResync] } : State).pending = .powerLoss :: [.cmdResync] ∧
    State.reset.pending = [] := by decide

theorem witness_StepsKeepQueueOutputsIdentity : step State.reset = .next State.reset := rfl

theorem witness_StepsKeepMemoriesCanonical : memoriesOk State.reset = true ∧ State.reset.chans.length = 4 ∧ State.reset.saved = none := by decide

theorem witness_PacketsAreCheckedFirst :
    State.reset.md.mode = .boot ∧ readable (inMode .idle) 1 (pk 1 0 []) = false ∧
    (readable (ringUp (inMode .idle)) 1 badPk = true ∧ frameCheck 1 badPk = some stBAD_CRC ∧ badPk.src = .ring) ∧
    (let p := { pk 1 0 [] with check := 0 }
     readable (give 1 p (inMode .idle)) 1 p = true ∧ frameCheck 1 p = some stBAD_CRC ∧ p.src ≠ .ring) ∧
    (let p := pk 1 3 []
     readable (give 1 p (inMode .idle)) 1 p = true ∧ frameCheck 1 p = none ∧
     checks true specInventory (consume (give 1 p (inMode .idle)) p) p = some (8, stBAD_PARAM)) := by decide

theorem witness_BadPacketHaltsTheRing :
    (badPk.src = .ring ∧ readable (ringUp (inMode .idle)) 1 badPk = true ∧ frameCheck 1 badPk = some stBAD_CRC) ∧
    (let p := { pk 1 0 [] 0 .ring with slots := 2 }
     let q := { p with check := BitVec.ofNat 32 (crc32c (hdr12 1 p)) }
     frameCheck 1 q = some stBAD_PARAM ∧ readable (ringUp (inMode .idle)) 1 q = true) ∧
    (let t := after (exec (.inventory badPk) (ringUp (inMode .idle)))
     t.md.powered = true ∧ t.md.rstLow = false ∧ t.ring.cmdHalt = true) := by decide

theorem witness_AcceptedPacketsMeetTheRules :
    acc specInventory 0 [] (inMode .idle) = true ∧ accAt specStop 0 70000000 [] live = true ∧
    acc specAeFaultRead 255 [] (inMode .idle) = true ∧
    acc specSetMode 0 [7, 0, 0, 0, 0, 0, 0, 0] { inMode .idle with md := { (inMode .idle).md with transit := some { target := .record, reason := 0 } } } = true ∧
    acc specHmAgeingRead 0 [0, 0, 0, 0, 1, 0, 0, 0] (inMode .safe) = true ∧
    acc specInventory 0 [] { inMode .idle with pair := { role := 2, sync := true } } = true := by decide

theorem witness_RepliesArePosted :
    (let p := pk 1 0 [] 2 .ring
     pktNoReply p = true ∧ p.src = .ring) ∧ srcMbx (pk 1 0 [] 2).src = some .spi ∧ pktNoReply (pk 1 0 []) = false ∧
    (inMode .idle).ring.rplEn = false ∧
    (let s := ringUp (inMode .idle)
     s.ring.rplEn = true ∧ slotsOf (zeros 4080).length = 64 ∧ rplFree s.ring = 63 ∧ slotsOf (zeros 4016).length ≤ rplFree s.ring ∧
     s.host.bme = true ∧ s.ring.rplTail < ringCount s.ring.rplSize) := by decide

theorem witness_EventsAreDelivered :
    (let s := setPar (ringUp (inMode .idle)) 0x0015 0 (2 ^ 21 - 1)
     s.md.mode ≠ .boot ∧ bit (par s 0x0015 0) 2 = true ∧ bit (par s 0x0015 0) 30 = false ∧ s.ring.lossPending = false ∧
     evtRoom s.ring = true ∧ s.host.bme = true) ∧
    (let s := setPar (inMode .idle) 0x0015 0 (2 ^ 21 - 1)
     bit (par s 0x0015 0) 2 = true ∧ evtRoom s.ring = false) ∧
    (let s := setPar (inMode .idle) 0x0014 0 (2 ^ 21 - 1)
     bit (par s 0x0014 (mbxInst .spi)) 2 = true ∧ (mbx s .spi).lossPending = false ∧ (mbx s .spi).fifo.length < 256) ∧
    (let s := setPar { inMode .idle with spi := { fifo := List.replicate 256 ⟨0, { code := 0, inst := 0, detail := 0 }⟩ } } 0x0014 0 4
     bit (par s 0x0014 (mbxInst .spi)) 2 = true ∧ 256 ≤ (mbx s .spi).fifo.length) := by decide

theorem witness_RegistersAreWritten :
    (let s := ringUp (inMode .idle)
     s.md.powered = true ∧ s.md.rstLow = false ∧ s.md.mode ≠ .dormant ∧ s.ring.cmdEn = true ∧ (63 : Nat) < 2 ^ s.ring.cmdSize ∧
     2 ^ s.ring.cmdSize ≤ (64 : W64).toNat ∧ s.ring.rplEn = true ∧ s.ring.held = none ∧ s.ring.evtEn = true ∧
     (63 : W64).toNat < 2 ^ s.ring.rplSize ∧ (63 : W64).toNat < 2 ^ s.ring.evtSize ∧ 2 ^ s.ring.evtSize ≤ (64 : W64).toNat) ∧
    (let s := ringUp (inMode .idle)
     let p := pk 0x00FF 0 [] 0 .ring
     let u := { s with ring := { s.ring with doorbell := (5 : W64).toNat } }
     (5 : W64).toNat < 4096 ∧ (5 : W64).toNat < 2 ^ s.ring.cmdSize ∧ definedOpcodes.contains (0x00FF : BitVec 16).toNat = false ∧ p.src = .ring ∧
     readable u (0x00FF : BitVec 16).toNat p = true ∧ frameCheck (0x00FF : BitVec 16).toNat p = none ∧
     (let s' := { s with ring := { s.ring with cmdHalt := true } }
      readable { s' with ring := { s'.ring with doorbell := 5 } } 0x00FF p = false)) ∧
    (let s := inMode .idle
     s.ring.cmdEn = false ∧ s.ring.cmdSize < 6 ∧ s.ring.rplEn = false ∧ s.ring.evtEn = false ∧ s.host.msix.wf = true ∧
     63 ∈ s.host.masked) ∧
    (let s := { inMode .idle with ring := { cmdSize := 12, cmdBase := 8192, rplSize := 6, evtSize := 16 } }
     6 ≤ s.ring.cmdSize ∧ s.ring.cmdSize ≤ 12 ∧ s.ring.cmdBase % 4096 = 0 ∧ 6 ≤ s.ring.rplSize ∧ s.ring.evtSize ≤ 16) ∧
    (let s := { inMode .idle with ring := { rplEn := true, held := some [] } }
     s.ring.rplEn = true ∧ s.ring.held.isSome = true ∧ s.spi.busy = false ∧ s.smbus.busy = false) ∧
    (let s := { inMode .idle with host := { pba := [63], funcMask := false, bme := true } }
     63 ∈ s.host.masked ∧ 63 ∈ s.host.pba ∧ s.host.funcMask = false ∧ s.host.bme = true) ∧
    (let s := { inMode .idle with host := { masked := [] } }
     0 ∉ s.host.masked ∧ s.host.msix.wf = true) := by decide

theorem witness_MailboxAccess :
    (let s := { inMode .idle with spi := { cmdBuf := memWrite [] 0 [1, 0] } }
     (mbx s .spi).busy = false ∧ (mbx s .spi).rplReady = false ∧ definedOpcodes.contains (leNat (memRead (mbx s .spi).cmdBuf 0 2)) = true) ∧
    (let s := { inMode .idle with smbus := { busy := true, pointer := 0x2010 } }
     s.md.powered = true ∧ s.md.rstLow = false ∧ (mbx s .smbus).busy = true ∧ s.smbus.pointer = 0x2010) ∧
    (let s := { inMode .idle with smbus := { pointer := 0xF01 } }
     s.smbus.pointer + (zeros 255).length ≤ 0x1000 ∧ 0 < (zeros 255).length ∧ (zeros 255).length ≤ 255) ∧
    (inMode .idle).md.powered = true ∧ (inMode .idle).md.rstLow = false ∧
    (0x5B : BitVec 7).toNat = 0x58 + ({ inMode .idle with mgmtAddr := 3 } : State).mgmtAddr % 4 ∧ (0x58 : BitVec 7) ≠ 0x5B ∧
    (0xFF0 : Nat) + (zeros 16).length ≤ 0x1000 ∧ 0 < (zeros 16).length := by decide

theorem witness_HeldRepliesAndEvents :
    (let s := { ringUp (inMode .idle) with ring := { (ringUp (inMode .idle)).ring with held := some (zeros 16), rplStall := true } }
     s.ring.held = some (zeros 16) ∧ s.ring.rplEn = true ∧ cdiv (zeros 16).length 64 ≤ rplFree s.ring) ∧
    (let s := { ringUp (inMode .idle) with ring := { (ringUp (inMode .idle)).ring with lossPending := true } }
     s.md.mode ≠ .boot ∧ s.ring.lossPending = true ∧ evtRoom s.ring = true) ∧
    (let s := { inMode .idle with spi := { lossPending := true }, smbus := { lossPending := true } }
     s.spi.lossPending = true ∧ s.spi.fifo.length < 256 ∧ s.smbus.lossPending = true ∧ s.smbus.fifo.length < 256) ∧
    acc specClearEvents 0 (leBytes 4 4) (inMode .idle) = true ∧ bit (fld (leBytes 4 4) 0 4) 2 = true ∧
    acc specClearEvents 0 (leBytes 4 1) (inMode .idle) = true ∧ bit (fld (leBytes 4 1) 0 4) 2 = false ∧
    (let s := { inMode .idle with ev := { windows := [((0x0F01, 3), {}), ((0x0F01, 4), { first := some { code := 0x0F01, inst := 4, detail := 0 } })] } }
     s.ev.windows.find? (fun w => w.1 = (0x0F01, 3)) = some ((0x0F01, 3), {}) ∧
     (s.ev.windows.find? (fun w => w.1 = (0x0F01, 4))).map (fun w => w.2.first.isSome) = some true) := by decide

/-! ### Witnesses: modes, settings, operations, cue points -/

theorem witness_ModeTransitions :
    (modeOf 1 = some .idle ∧ acc specSetMode 0 (leBytes 8 1) (inMode .idle) = true) ∧
    (modeOf 2 = some .analyse ∧ acc specSetMode 0 (leBytes 8 2) (inMode .idle) = true) ∧
    (modeOf 7 = some .safe ∧ acc specSetMode 0 (leBytes 8 7) (inMode .idle) = true) ∧
    accAt specSetMode 0 70000000 (leBytes 8 3) { live with store := { state := 2, formatted := true } } = true ∧
    (let s := { inMode .idle with md := { (inMode .idle).md with transit := some { target := .record, reason := 0 } } }
     modeReady s .record = true ∧ s.md.wakePending = false) ∧
    (let s := withOp { handle := 1, opcode := 0x0D41, total := 9 } { inMode .idle with md := { (inMode .idle).md with transit := some { target := .watch, reason := 0 } } }
     modeReady s .watch = false) ∧
    (let s := setPar (inMode .watch) 0x0017 0 17
     bit (par s 0x0017 0) 0 = true ∧ s.md.transit = none) ∧ bit (par (setPar (inMode .dormant) 0x0017 0 16) 0x0017 0) 0 = false ∧
    (let s := setPar { inMode .watch with md := { (inMode .watch).md with transit := some { target := .dormant, reason := 0 } } } 0x0017 0 1
     bit (par s 0x0017 0) 0 = true ∧ s.md.waking = false) ∧
    (let s := setPar (setPar { inMode .dormant with md := { (inMode .dormant).md with wakeTimerOn := true } } 0x001A 0 5) 0x0017 0 16
     s.md.wakeTimerOn = true ∧ par s 0x001A 0 ≠ 0 ∧ bit (par s 0x0017 0) 4 = true ∧ s.md.transit = none) := by decide

theorem witness_ResetsAndBoot :
    ((inMode .record).md.powered = true ∧ (inMode .record).md.rstLow = false) ∧ ({ inMode .idle with sec := { trial := true } } : State).sec.trial = true ∧
    (State.reset.md.mode = .boot ∧ ¬ (State.reset.md.cause = 3 ∧ State.reset.sec.trial = true) ∧ State.reset.md.rstLow = true ∧ State.reset.md.powered = true) ∧
    (let s := after (exec .powerLoss (inMode .idle))
     s.md.powered = false ∧ s.md.rstLow = false ∧ s.md.mode = .boot) ∧
    (let s := after (exec .powerLoss State.reset)
     s.md.powered = false ∧ s.md.rstLow = true) ∧
    (let s := after (exec (.rstNRelease { slotA := some { version := 3, rollback := 1 }, slotB := none, mgmtAddr := 1, refinHz := 100000000, xoHz := 100000000 }) State.reset)
     s.md.mode = .boot ∧ s.md.booting = true ∧ s.md.powered = true ∧ s.md.rstLow = false ∧ s.md.romServes = false) ∧
    (after (exec (.rstNRelease { slotA := none, slotB := none, mgmtAddr := 0, refinHz := 0, xoHz := 100000000 }) State.reset)).md.romServes = true := by decide

theorem witness_ShedLevelsAndTrips :
    shedEnter 1 = -25 ∧ (inMode .idle).md.level < 1 ∧ (-91 : Int) < -90 ∧ (inMode .idle).md.mode ≠ .safe ∧ (inMode .idle).md.transit = none ∧
    (-1000 : Int) < shedEnter 4 ∧ shedEnter 4 ≤ 0 ∧
    (let s := { inMode .idle with md := { (inMode .idle).md with level := 4 } }
     0 < s.md.level ∧ s.md.level < 5 ∧ ∀ d ∈ [(1000 : Int), 1000, 1000, 1000], shedRecover s.md.level < d) := by decide

theorem witness_ParameterCommands :
    acc specInventory 0 [] (inMode .dormant) = false ∧ acc specInventory 0 [] (inMode .watch) = true ∧
    acc specGetParam 0 ([1, 0, 0, 0, 0, 0, 0, 0] ++ [0x1A, 0, 0, 0, 0, 0, 0, 0]) (inMode .idle) = true ∧
    (let p := pkSet [(0x001A, 0, 5), (0x001A, 0, 6)]
     accepted (specSetParam p) p (give 3 p (inMode .idle)) = true ∧ pktAt p = false ∧ ∀ e ∈ setEntries (ownOf p), plainPar e.1 = true) ∧
    (let q := pkSet [(0x0407, 0, 1)]
     let p := pk 3 0 (leBytes 8 70000000 ++ q.payload) 1
     plainPar 0x0407 = true ∧ pktAt p = true) := by decide

/-! ### Bundles -/

/-- Slots and LONG bundles by Tables 11-5 and 11-6. -/
def wAr (op a b c : Nat) : Nat := (op * 2 ^ 13 + a * 2 ^ 8 + b * 2 ^ 3 + c) * 2 ^ 44
def wLs (op d a m am : Nat) : Nat := (op * 2 ^ 13 + d * 2 ^ 8 + a * 2 ^ 5 + m * 2 ^ 2 + am) * 2 ^ 26
def wAd (op a m : Nat) : Nat := (op * 2 ^ 6 + a * 2 ^ 3 + m) * 2 ^ 18
def wCt (op x : Nat) : Nat := op * 2 ^ 13 + x
def wLg (op r imm : Nat) : Nat := 2 ^ 62 + op * 2 ^ 56 + r * 2 ^ 51 + imm

/-- Engine 0 runs, with a bundle at PC 0. -/
def engAt (w : Nat) (f : Engine → Engine := id) (m : Mode := .analyse) : State :=
  setEng (inMode m) 0 (fun x => f { x with st := .running, loaded := true, imem := [(0, w)] })

/-- The bundle issues there, without a fault, on a quiet engine. -/
def iss (w : Nat) (f : Engine → Engine := id) (m : Mode := .analyse) : Bool := issues (engAt w f m) 0 w && quiet (eng (engAt w f m) 0)

/-! ### The manual's encodings (Table 11-13) are read as the rows they stand for -/

theorem test_decode_ldi_a : isLg 0x03 0 0x4000 0x4300000000004000 = true := by decide
theorem test_decode_ldi_m : isLg 0x04 0 4 0x4400000000000004 = true := by decide
theorem test_decode_xor_d0 : isAr 0x0E 0 0 0 0x1C00000000000000 = true := by decide
theorem test_decode_xor_d1 : isAr 0x0E 1 1 0 0x1C10800000000000 = true := by decide
theorem test_decode_accclr : isAr 0x07 0 3 0 0x0E01800000000000 = true := by decide
theorem test_decode_repeat : isLg 0x01 0 0x4020000 0x4100000004020000 = true ∧ repN 0x4100000004020000 = 1027 ∧ repK 0x4100000004020000 = 1 := by decide
theorem test_decode_qmac_ldc16 : isAr 0x02 0 0 1 0x0400130004000000 = true ∧ isLs 0x06 0 0 0 1 0x0400130004000000 = true := by decide
theorem test_decode_nop : isNop 0 = true := by decide
theorem test_decode_accrd : isAr 0x04 8 16 0 0x0888000000000000 = true := by decide
theorem test_slots_do_not_overlap :
    let w := wAr 31 31 31 7 + wLs 31 31 7 7 3 + wAd 3 7 7 + wCt 31 8191
    w = 2 ^ 62 - 1 ∧ isAr 31 31 31 7 w = true ∧ isLs 31 31 7 7 3 w = true ∧ isAd 3 7 7 w = true ∧ isCt 31 8191 w = true := by decide

/-! ### Single bundles -/

theorem test_adds_clamps : (eng (after (exec (.adds 0 4 2 0) (engAt (wAr 0x09 4 2 0) (fun x => { x with
    d := lmod (lmod x.d 4 (fun _ => 0x7FFFFFFF)) 2 (fun _ => 1) })))) 0).d[4]? = some 0x7FFFFFFF := by decide
theorem test_add_wraps : (eng (after (exec (.add 0 4 2 0) (engAt (wAr 0x08 4 2 0) (fun x => { x with
    d := lmod (lmod x.d 4 (fun _ => 0xFFFFFFFF)) 2 (fun _ => 1) })))) 0).d[4]? = some 0 := by decide
theorem test_rndi_rounds : rndi 2 6 = 2 ∧ rndi 2 (2 ^ 32 - 6) = 2 ^ 32 - 1 ∧ rndi 31 (2 ^ 30) = 1 := by decide
theorem test_ldc16_scales : loadValue 0x06 0 (leBytes 2 16384 ++ leBytes 2 0) = ([(0, 65536), (1, 0)], false) := by decide
theorem test_jal_returns_behind_delay_slots : (eng (after (exec (.jal 0 0x40) (engAt (wCt 0x07 0x40)))) 0).d[31]? = some 3 := by decide
theorem test_odd_pair_is_illegal : (worst (bundleFaults (engAt (wLs 0x05 3 0 0 0)) 0 (wLs 0x05 3 0 0 0))).map (·.1) = some 1 := by decide
theorem test_circular_is_refused_in_analyse :
    (worst (bundleFaults (engAt (wAd 3 0 0)) 0 (wAd 3 0 0))).map (·.1) = some 4 := by decide
theorem test_two_writes_of_one_register_are_illegal :
    (let w := wAr 0x08 4 2 0 + wLs 0x01 4 0 0 0
     (worst (bundleFaults (engAt w) 0 w)).map (·.1) = some 1) := by decide

/-! ### Witnesses: engines -/

theorem witness_EngineArithmetic :
    (∀ r ∈ aluRows, iss (wAr r.op 4 2 0) = true ∧ isAr r.op 4 2 0 (wAr r.op 4 2 0) = true ∧ arAlone (wAr r.op 4 2 0) = true) ∧
    (∀ r ∈ aluRows, r.op = 0x1D → iss (wAr r.op 31 31 7) = true) ∧
    (∀ r ∈ chainRows, iss (wAr r.op (if r.op = 7 then 0 else 4) 2 0) = true) ∧
    iss (wAr 0x15 31 30 0) = true ∧ iss (wAr 0x16 31 30 0) = true ∧ (iss 0 = true ∧ arAlone 0 = true ∧ arOp 0 = 0) := by decide

theorem witness_EngineDelayedResults :
    issues (engAt 0 (fun x => { x with loads := [⟨2, [(31, 7)]⟩] })) 0 0 = true ∧
    issues (engAt 0 (fun x => { x with chain := [⟨1, [⟨3, false, -5⟩]⟩] })) 0 0 = true ∧
    issues (engAt 0 (fun x => { x with branch := some (.to 4095, 1) })) 0 0 = true ∧
    issues (engAt 0 (fun x => { x with rep := some ⟨0, 63, 0, 63⟩ })) 0 0 = true := by decide

theorem witness_EngineLoadsAndStores :
    (∀ r ∈ loadRows, iss (wLs r.op 4 1 0 0) = true ∧ isLs r.op 4 1 0 0 (wLs r.op 4 1 0 0) = true ∧ lsAlone (wLs r.op 4 1 0 0) = true ∧
      regionAt (engAt (wLs r.op 4 1 0 0)) (slotAddr (eng (engAt (wLs r.op 4 1 0 0)) 0) 1 0 0) = some 0) ∧
    (let f := fun (x : Engine) => { x with a := lmod x.a 1 (fun _ => 0x2000000000), prog := { x.prog with regions := [⟨0x2000000000, 4096, 1, 1⟩] } }
     iss (wLs 0x01 4 1 0 1) f = true ∧ regionAt (engAt (wLs 0x01 4 1 0 1) f) (slotAddr (eng (engAt (wLs 0x01 4 1 0 1) f) 0) 1 0 1) = some 3) ∧
    (∀ r ∈ storeRows, r.entry = 0 → iss (wLs r.op 4 1 0 3) = true) ∧
    (let f := fun (x : Engine) => { x with a := lmod x.a 1 (fun _ => 0x1000000), prog := { x.prog with regions := [⟨0x1000000, 4096, 0, 2⟩] } }
     ∀ r ∈ storeRows, 0 < r.entry → iss (wLs r.op 4 1 0 0) f = true) ∧ iss (wLs 0x0E 0 1 0 0) = true := by decide

theorem witness_EngineAddressAndGather :
    (iss (wAd 1 7 7) = true ∧ adAlone (wAd 1 7 7) = true) ∧ iss (wAd 2 7 7) = true ∧
    iss (wAd 3 7 7) (fun x => { x with l := lmod x.l 7 (fun _ => 64), m := lmod x.m 7 (fun _ => 4) }) .service = true ∧
    (let w := wLs 0x0D 8 1 2 2
     iss w = true ∧ isLs 0x0D 8 1 2 2 w = true ∧ ∀ i, i < 8 → regionAt (engAt w) (gatherAddr (engAt w) 0 w i) = some 0 ∧
       gatherAddr (engAt w) 0 w i % 4 = 0 ∧ regionAt (engAt w) (gatherAddr (engAt w) 0 w i + 3) = some 0) ∧
    (let w := wLs 0x0D 8 1 2 0
     let f := fun (x : Engine) => { x with a := lmod x.a 1 (fun _ => 0x2000000000), prog := { x.prog with regions := [⟨0x2000000000, 4096, 1, 1⟩] } }
     iss w f = true ∧ regionAt (engAt w f) (gatherAddr (engAt w f) 0 w 0) ≠ some 0) := by decide

theorem witness_EngineBranchesAndControl :
    (∀ r ∈ branchRows, iss (wCt r.2.1 (if r.2.1 = 0x0B then 0 else 4095)) = true ∧ ctAlone (wCt r.2.1 4095) = true) ∧
    (∀ op ∈ [0x06, 0x07], iss (wCt op 4095) = true ∧ isCt op 4095 (wCt op 4095) = true) ∧
    iss (wCt 0x08 31) = true ∧ iss (wCt 0x09 0) (fun x => { x with insig := true }) = true ∧
    iss (wCt 0x0A 0) (fun x => { x with inexc := true }) = true ∧
    (iss (wCt 0x0C 0) = true ∧ pauseAsked (eng (engAt (wCt 0x0C 0)) 0) = false) ∧
    iss (wCt 0x0C 0) (fun x => { x with pauseGate := true }) = true ∧ iss (wCt 0x0D 0) (fun x => { x with sen := true, smask := 1 }) = true ∧
    iss (wCt 0x0E (30 * 256 + 255)) = true ∧ iss (wCt 0x0F (30 * 256)) = true ∧ iss (wCt 0x15 0) = true := by decide

theorem witness_EngineMovesAndLong :
    (∀ n, n < 11 → iss (wCt 0x10 (31 * 256 + n)) = true ∧ isCt 0x10 (31 * 256 + n) (wCt 0x10 (31 * 256 + n)) = true) ∧
    (∀ n, n < 6 → iss (wCt 0x11 (31 * 256 + n)) = true) ∧
    iss (wCt 0x12 (30 * 256 + 7)) = true ∧ iss (wCt 0x13 (30 * 256 + 7)) = true ∧ iss (wCt 0x14 (31 * 256 + 7)) = true ∧
    (iss (wLg 0x01 0 0x10001) = true ∧ isLg 0x01 0 0x10001 (wLg 0x01 0 0x10001) = true) ∧
    iss (wLg 0x02 31 0xFFFFFFFF) = true ∧ iss (wLg 0x03 7 0x3FFFFFFFFF) = true ∧ iss (wLg 0x04 7 0) = true ∧
    iss (wLg 0x05 7 0x3FFFFFFFFF) = true ∧ iss (wLg 0x06 7 0xFFFFFFFF) = true ∧ iss (wLg 0x07 0 0xFFFFFFFF) = true := by decide

theorem witness_EngineBreak :
    let w := wCt 0x16 0
    canIssue (engAt w) 0 = true ∧ bundleAt (engAt w) 0 = w ∧ isCt 0x16 0 w = true ∧
    worst (bundleFaults (engAt w) 0 w) = some (8, 3, 255, 0) ∧ (eng (engAt w) 0).inexc = false ∧ (eng (engAt w) 0).insig = false := by decide

theorem witness_EngineBundlesReach :
    (∃ i ∈ [Instr.add 0 4 2 0], exec i (engAt (wAr 0x08 4 2 0)) = exec (.add 0 4 2 0) (engAt (wAr 0x08 4 2 0))) ∧
    ctOp (wAr 0x08 4 2 0) ≠ 0x0C ∧ ∀ n, (eng (engAt (wAr 0x08 4 2 0)) 0).branch ≠ some (.halt, n) := by
  refine ⟨⟨_, List.mem_singleton.2 rfl, rfl⟩, by decide, fun n => ?_⟩
  have h : (eng (engAt (wAr 0x08 4 2 0)) 0).branch = none := by decide
  rw [h]; exact fun k => nomatch k

theorem witness_EngineDataAndDrains :
    (let w := wLs 0x05 4 1 0 0
     let f := fun (x : Engine) => { x with stall := .data, a := lmod x.a 1 (fun _ => 0x2000000000), prog := { x.prog with regions := [⟨0x2000000000, 4096, 1, 1⟩] } }
     let s := engAt w f
     bundleAt s 0 = w ∧ quiet (eng s 0) = true ∧ (eng s 0).stall = .data ∧ regionAt s (slotAddr (eng s 0) 1 0 0) = some 3 ∧
     worst (lsFaults (lineRead s 0 0) 0 w) = none) ∧
    (let s := engAt 0 (fun x => { x with buf := [⟨64, 0, zeros 4⟩] })
     (eng s 0).buf = [⟨64, 0, zeros 4⟩] ∧ regionAt s 64 = some 0) ∧
    regionAt (engAt 0) 0x1000000 = some 1 ∧ regionAt (engAt 0) 0x2000000000 = some 3 ∧
    (let s := engAt 0 (fun x => { x with buf := [⟨64, 0x10, zeros 4⟩] })
     (eng s 0).buf = [⟨64, 0x10, zeros 4⟩] ∧ (64 : Nat) % 4 = 0 ∧ (0 : Nat) = uns 32 (satS 32 (sgn 32 0 + sgn 32 0))) := by decide

theorem witness_EngineIoAndSignals :
    (let w := wLs 0x05 4 1 0 0
     let s := setCluster (engAt w (fun x => { x with stall := .data, a := lmod x.a 1 (fun _ => 0x2000F00), prog := { x.prog with mailboxes := [(15, 0)] } })) 0
       (fun c => { c with mail := lmod c.mail 15 (fun _ => [7, 8]) })
     ioOfLoad s 0 = some (0, 15) ∧ nth (cluster s 0).mail 15 [] = 7 :: [8] ∧ quiet (eng s 0) = true ∧
     worst (lsFaults (setCluster s 0 (fun c => { c with mail := lmod c.mail 15 (fun _ => [8]) })) 0 w) = none) ∧
    (let w := wLs 0x01 4 1 0 0
     let s := engAt w (fun x => { x with stall := .data, a := lmod x.a 1 (fun _ => 0x2001000), prog := { x.prog with ports := [(0, 0x0100)] },
                                         ports := lmod x.ports 0 (fun p => { p with recs := [⟨zeros 8, 0⟩] }) })
     ioOfLoad s 0 = some (2, 0) ∧ (nth (eng s 0).ports 0 {}).recs = ⟨zeros 8, 0⟩ :: [] ∧ (4 : Nat) ≤ (zeros 8).length ∧
     worst (lsFaults (popPort s 0 0 4).2 0 w) = none) ∧
    (let s := engAt 0 (fun x => { x with buf := [⟨0x2000F00, 0, zeros 8⟩] })
     (eng s 0).stall ≠ .data ∧ (nth (cluster s 0).mail 15 []).length < 64 ∧ 15 < (cluster s 0).mail.length ∧ capBlocked s 0x0600 = false) ∧
    bit (leNat (leBytes 8 1)) 0 = true ∧ (tget? (engAt 0).engines 0).isSome = true ∧
    (let s := engAt 0 (fun x => { x with sigp := 128, smask := 128, sen := true })
     lineDue (eng s 0) = some 7 ∧ openBoundary (eng s 0) = true ∧ (eng s 0).st = .running ∧ (eng s 0).stall = .none) ∧
    (eng (engAt 0 (fun x => { x with pauseGate := true })) 0).pauseGate = true ∧
    (eng (engAt 0 (fun x => { x with pauseSubst := true, st := .waiting })) 0).st = .waiting := by decide


/-! ### Witnesses: operations, cue points, test access, analogue units, clocks -/

/-- A live operation of a kind, of n units of work. -/
def op (code total : Nat) (st : OpState := .running) (args : List Nat := []) : LongOp :=
  { handle := 1, opcode := code, state := st, total, work := { args } }

theorem witness_LongOperations :
    (let s := withOp (op 0x0D40 2) (inMode .idle)
     findOp s 1 = some (op 0x0D40 2) ∧ fld (leBytes 4 1) 0 4 = 1 ∧ acc specQueryOp 0 (leBytes 4 1) s = true ∧
     acc specSuspendOp 0 (leBytes 4 1) s = true ∧ acc specResumeOp 0 (leBytes 4 1) s = true ∧ acc specCancelOp 0 (leBytes 4 1) s = true ∧
     (op 0x0D40 2).done + 1 < (op 0x0D40 2).total ∧ (op 0x0D40 1).total ≤ (op 0x0D40 1).done + 1) ∧
    (let s := withOp (op 0x0D40 2 .suspended) (inMode .idle)
     (findOp s 1).map (·.state) = some .suspended ∧ acc specResumeOp 0 (leBytes 4 1) s = true ∧ acc specSuspendOp 0 (leBytes 4 1) s = true) ∧
    opLive (op 0x0D40 2 .done) = false ∧ (op 0x0D40 2 .suspending).done + 1 < (op 0x0D40 2 .suspending).total ∧
    (let s := withOp (op 0x0440 1 .running [0]) (inMode .idle)
     let sets := [((0 : Nat), zeros 416)]
     (findOp s 1).map (·.opcode) = some 0x0440 ∧ 0 < s.chans.length ∧ sets.filter (fun x => x.1 = 0) = [(0, zeros 416)] ∧ 1 ∉ (op 0x0440 1 .running [0]).work.args ∧
     (op 0x0440 1 .running [0]).work.args.all (fun c => (sets.filter (fun x => x.1 = c)).length = 1)) ∧
    (findOp (withOp (op 0x0D40 2 .suspending) (inMode .idle)) 1).map (·.state) = some .suspending ∧
    (findOp (withOp (op 0x0D40 2 .cancelling) (inMode .idle)) 1).map (fun o => (o.state, o.done)) = some (.cancelling, 0) := by decide

/-- A change that waits for a cue ordinal. -/
def waits (act : PendAct) (ord : Nat := 900) : PendChange := { chan := 0, ord, tag := 0, opcode := 0, inst := 0, act }

theorem witness_CuePointsApply :
    (let s := { live with pend := [waits .stop 950, waits (.duSwap 3), waits (.duClear 0), waits .stop 1001] }
     firstDue s = some (waits (.duSwap 3)) ∧ changeDue s (waits .stop 950) = true ∧ changeDue s (waits .stop 1001) = false) ∧
    (∀ c, c < 4 → (chan live c).running = true → domainOf live c = cueChan live) ∧ (chan live (cueChan live)).buf.dropping = none ∧
    (∀ a ∈ [PendAct.duClear 0, .maskSwap 15, .cueHost 255, .stop], firstDue { live with pend := [waits a 1000] } = some (waits a 1000)) := by decide

theorem witness_TestAccessPort :
    State.reset.md.powered = true ∧ debugOpen State.reset = false ∧ scanEnabled State.reset = false ∧ (List.replicate 32 false).length = 32 ∧
    (let s := { inMode .idle with sec := { debug := some 1 } }
     s.sec.debug = some 1 ∧ bit 1 0 = true) ∧
    (let s := setPar (inMode .service) 0x1301 0 1
     s.md.powered = true ∧ scanEnabled s = true) ∧
    (let s := { inMode .safe with md := { (inMode .safe).md with safeCause := 6 } }
     scanEnabled s = true) := by decide

/-- The auxiliary converter runs. -/
def auxUp : State := { setPar live 0x0F12 0 2 with aux := { running := true } }

/-- A comparator in a state, enabled, T_H 2,000 and T_L 1,000. -/
def cmpAt (st : CmpState) : State :=
  setPar (setPar { inMode .analyse with cmps := lmod (inMode .analyse).cmps 15 (fun c => { c with enabled := true, st := st }) }
    0x0F21 15 2000) 0x0F22 15 1000

theorem witness_AuxAndComparators :
    (auxOpen auxUp = true ∧ [0, -9000].length = par auxUp 0x0F12 (auxUp.aux.next % auxL auxUp) ∧ par auxUp 0x0F14 0 = 0 ∧ auxUp.aux.buf.ended = []) ∧
    (let s := setPar { auxUp with aux := { auxUp.aux with next := 2 * auxL auxUp } } 0x0F14 0 2
     auxOpen s = true ∧ (2 : Nat) = par s 0x0F12 0 ∧ par s 0x0F14 0 ≠ 0 ∧ s.aux.next / auxL s % par s 0x0F14 0 = 0 ∧ s.aux.next % auxL s = 0) ∧
    (∀ st ∈ [CmpState.below, .inside, .above],
      let s := cmpAt st
      tiuOn s = true ∧ (comparator s 15).enabled = true ∧ (comparator s 15).st = st ∧ parI s 0x0F21 15 * 2000 = 4000000 ∧
      parI s 0x0F22 15 * 2000 = 2000000 ∧ cmpHyst s 15 < 2000000) := by decide

/-- A change queued for a PDAC. -/
def pdacDue (ord : Option Nat) : PdacDue := { pdac := 7, tag := 0, ord, span := some 1, code := some 40000 }

theorem witness_PdacChanges :
    (inMode .idle).pdac.clrLow = false ∧ (inMode .idle).md.mode ≠ .boot ∧ (inMode .idle).md.mode ≠ .dormant ∧ 7 < (inMode .idle).pdac.dacs.length ∧
    (∀ o ∈ [none, some 500], ∀ c ∈ [true, false],
      let s := { inMode .analyse with pdac := { due := [pdacDue o], dacs := lmod (inMode .idle).pdac.dacs 7 (fun d => { d with cleared := c }) } }
      s.pdac.due.find? (fun y => decide (y.pdac = 7)) = some (pdacDue o) ∧ tapDrives s = false ∧ s.pdac.clrLow = false ∧
      (pdacOf s 7).held = false ∧ (pdacOf s 7).cleared = c ∧ (pdacDue o).span.isSome = true) ∧
    (∀ b ∈ [true, false],
      let x := { pdacDue (some 500) with told := b }
      let s := { inMode .analyse with pdac := { due := [x], dacs := lmod (inMode .idle).pdac.dacs 7 (fun d => { d with cleared := true }) } }
      s.pdac.due.find? (fun y => decide (y.pdac = 7)) = some x ∧ x.told = b ∧ (pdacOf s 7).held = false ∧ (pdacOf s 7).cleared = true) := by decide

theorem witness_EdgesAreStamped :
    (let s := setPar (setPar (inMode .idle) 0x1001 15 1) 0x1002 15 1
     tiuOn s = true ∧ edgeSource s 15 = true ∧ edgeSelected s 15 false = true ∧ edgeSelected s 15 true = false ∧ polarity s 15 true = false ∧ par s 0x1006 15 ≠ 1) ∧
    (let s := setPar (setPar (inMode .watch) 0x1002 15 0) 0x1006 15 1
     tiuOn s = true ∧ edgeSource s 15 = true ∧ par s 0x1001 15 ≠ 1 ∧ polarity s 15 true = true ∧ par s 0x1006 15 = 1) ∧
    (let s := setPar (setPar (setPar (inMode .idle) 0x1001 31 1) 0x1002 31 2) 0x1004 15 0x23
     edgeSource s 31 = true ∧ edgeSelected s 31 true = true) ∧
    acc specTiuAnchorRead 0 [] (inMode .idle) = true := by decide

/-- With clocks as given. -/
def clocks (s : State) (source : Nat) (refin xo : Bool) : State :=
  { s with clk := { s.clk with source, refinOk := refin, xoOk := xo, plls := lmod s.clk.plls 3 (fun p => { p with powered := true, lock := true }) } }

theorem witness_ReferencesAndLock :
    (let s := clocks (inMode .idle) 1 true true
     s.md.mode ≠ .dormant ∧ s.clk.refinOk = true ∧ s.clk.source = 1 ∧ par s 0x0501 0 = 0 ∧ s.clk.xoOk = true ∧ s.clk.source ≠ 2) ∧
    (let s := clocks (inMode .idle) 1 true false
     s.clk.refinOk = true ∧ s.clk.source = 1 ∧ par s 0x0501 0 = 0 ∧ s.clk.xoOk = false ∧ par s 0x0501 0 ≤ 1) ∧
    (let s := clocks (inMode .idle) 2 true true
     s.clk.refinOk = true ∧ s.clk.source ≠ 1 ∧ s.clk.source = 2 ∧ s.clk.xoOk = true ∧ par s 0x0501 0 = 0) ∧
    (let s := setPar (clocks (inMode .idle) 2 true true) 0x0501 0 2
     s.clk.xoOk = true ∧ s.clk.source = 2 ∧ par s 0x0501 0 = 2) ∧
    (let s := clocks (inMode .idle) 0 false false
     s.clk.refinOk = false ∧ s.clk.source = 0 ∧ par s 0x0501 0 ≤ 1 ∧ s.clk.xoOk = false) ∧
    (let s := clocks live 2 false true
     s.clk.refinOk = false ∧ s.clk.source = 2 ∧ s.clk.xoOk = true ∧ par s 0x0501 0 = 0 ∧ anyRunning s = true) ∧
    (let s := clocks (inMode .idle) 2 false true
     s.clk.source = 2 ∧ anyRunning s = false) ∧
    (let s := clocks (inMode .idle) 1 true false
     xoHere 99000000 = true ∧ s.clk.xoOk = false ∧ s.clk.source = 1 ∧ par s 0x0501 0 ≤ 1 ∧ s.clk.refinOk = true) ∧
    (let s := setPar (clocks (inMode .idle) 0 false false) 0x0501 0 2
     s.clk.source = 0 ∧ par s 0x0501 0 = 2 ∧ s.clk.xoOk = false) ∧
    (let s := { inMode .idle with clk := { (inMode .idle).clk with refinHz := 100000000 } }
     withinPpm 100020000 s.clk.refinHz (refinPpm s.clk.xoOk) = true) ∧
    (let s := clocks (inMode .idle) 2 true true
     s.clk.refinOk = true ∧ 1 ≤ s.clk.refinFreq ∧ s.clk.refinFreq ≤ 3) ∧
    xoHere 98999999 = false ∧ refinCode true 100020000 = 3 ∧ refinCode false 9900000 = 1 ∧ refinCode true 9900000 = 0 ∧
    (let x : Pll := { powered := true, good := 2 }
     x.lock = false ∧ x.good = 2) ∧
    (let x := nth (clocks (inMode .idle) 1 true true).clk.plls 3 {}
     x.powered = true ∧ x.lock = true ∧ x.bad = 0) ∧
    (∀ x ∈ [({ powered := true, good := 2 } : Pll), { powered := true }, { powered := true, lock := true, bad := 1 }],
      let s := { inMode .idle with clk := { (inMode .idle).clk with plls := [{}, {}, {}, x] } }
      (nth s.clk.plls 3 {}) = x ∧ x.powered = true ∧ s.clk.source ≠ 0) := by decide

theorem witness_TimeAndPulses :
    (live.md.mode ≠ .boot ∧ live.md.mode ≠ .dormant ∧ live.pair.aligning = none ∧ running live (cueChan live) = true) ∧
    (let s := { live with clk := { live.clk with ppsQual := true, firstEdge := false } }
     s.clk.ppsQual = true ∧ s.clk.firstEdge = false) ∧ acc specClkSetTime 0 (leBytes 8 (2 ^ 48 - 1)) (inMode .idle) = true ∧
    (999999000 : Nat) ≤ 1000001000 ∧ (999998999 : Nat) < 999999000 ∧
    (∀ n ∈ [0, 1], let s := setPar (setPar (setPar (setPar live 0x0520 1 1) 0x0521 1 999) 0x0522 1 100) 0x0524 1 n
     gateOpen s 1 = true ∧ dueNow s (pulseFrom s 1 (gate s 1).nextFrom) = true ∧
     pendBelow s (cueChan s) (pulseFrom s 1 (gate s 1).nextFrom) = false ∧ gateLast s 1 = decide (n = 1) ∧ edgeHeld s 999 = false) ∧
    (let s := { live with cue := { live.cue with trg := lmod live.cue.trg 3 (fun t => { t with queue := [(1000, 1001)] }) } }
     (nth s.cue.trg 3 {}).queue = (1000, 1001) :: [] ∧ 1000 ≤ ordNext s (cueChan s) ∧ (nth s.cue.trg 3 {}).high = none ∧ edgeHeld s 1000 = false) := by decide

/-! ### Witnesses: DMA, the host link, the HBM3 controller -/

/-- A DMA channel as given, Bus Master Enable as given. -/
def dmaOn (c : Nat) (x : DmaChannel) (bme : Bool := true) : State :=
  let s := inMode .idle
  { s with host := { s.host with bme, chans := lmod s.host.chans c (fun _ => x) } }

/-- The 32 bytes of a descriptor. -/
def dsc (buf len flags next : Nat) (done : Nat := 0) : List Byte :=
  leBytes 8 buf ++ leBytes 4 len ++ leBytes 2 flags ++ zeros 2 ++ leBytes 8 next ++ zeros 6 ++ leBytes 1 done ++ zeros 1

theorem witness_DescriptorsAreFetched :
    (∀ a ∈ [2 ^ 63 + 0x3FFE1, 64, 2 ^ 63, 2 ^ 63 + 0x3FFE0], ∀ w ∈ [true, false],
      let x := dmaCh (dmaOn 31 { st := .running, next := some a, waiting := w }) 31
      x.st = .running ∧ x.desc = none ∧ x.next = some a ∧ x.waiting = w) ∧
    (dmaOn 31 {} false).host.bme = false ∧ (dmaOn 31 {} true).host.bme = true ∧
    (padTo 32 (dsc 64 64 2 0) = dsc 64 64 2 0 ∧ bit (fld (dsc 64 64 2 0) 30 1) 0 = false ∧ descriptorFault (dsc 64 64 2 0) = none) ∧
    bit (fld (dsc 64 64 2 0 1) 30 1) 0 = true ∧ descriptorFault (dsc 65 64 2 0) = some stMISALIGNED ∧
    descriptorFault (dsc 64 0 2 0) = some stBAD_PARAM ∧ descriptorFault (dsc 64 64 0 (2 ^ 63 + 0x40000)) = some stBAD_PARAM := by decide

/-- A descriptor in progress, of 64 bytes. -/
def d64 : Descriptor := { addr := 128, buf := 4096, len := 64, irq := false, last := false, next := 160 }

theorem witness_DescriptorsComplete :
    (∀ r ∈ [(([(zeros 64, false, 1)] : List (List Byte × Bool × Nat)), false), ([(zeros 16, true, 0)], true), ([([], true, 0)], false)],
      let s := dmaOn 5 { st := .running, desc := some d64, data := r.1, flushDue := r.2 }
      let x := dmaCh s 5
      x.desc = some d64 ∧ x.direct = none ∧ s.host.bme = true ∧ x.st = .running ∧
      (d64.len ≤ (waitingBytes x.data).1 ∨ (waitingBytes x.data).2 = true ∨ x.flushDue = true)) ∧
    (let x := dmaCh (dmaOn 5 { st := .running, desc := some d64, data := [(zeros 16, false, 1)] }) 5
     (waitingBytes x.data).1 < d64.len ∧ (waitingBytes x.data).2 = false ∧ x.flushDue = false ∧ 0 < (waitingBytes x.data).1) ∧
    (let s := dmaOn 5 { st := .running, direct := some ⟨4096, 0, 64, false, .ended⟩ }
     (dmaCh s 5).direct = some ⟨4096, 0, 64, false, .ended⟩ ∧ (dmaCh s 5).st = .running) ∧
    (let s := dmaOn 31 { st := .running, waiting := true, next := some 64 }
     setBits 32 (2 ^ 31) = [31] ∧ fetchOpen s 31 = true ∧ (dmaCh s 31).waiting = true ∧ (dmaCh s 31).next = some 64) ∧
    (∀ c ∈ List.range 32, fetchOpen State.reset c = false) ∧
    (let x := dmaCh (dmaOn 5 { st := .running, desc := some d64, data := [(zeros 64, false, 1)] }) 5
     x.direct = none ∧ x.desc = some d64 ∧ d64.len ≤ (waitingBytes x.data).1 ∧ 0 < d64.len ∧ (takeItems d64.len x.data).bytes ≠ []) ∧
    (let x := dmaCh (dmaOn 5 { st := .running, next := some 64 }) 5
     x.direct = none ∧ x.desc = none ∧ x.next = some 64) := by decide

theorem witness_HostLinkAndDma :
    acc specDmaChain 31 (leBytes 8 64 ++ zeros 8) (inMode .idle) = true ∧ acc specDmaChain 31 (leBytes 8 65 ++ zeros 8) (inMode .idle) = true ∧
    acc specDmaStop 0 [] (inMode .idle) = true ∧
    (∀ r ∈ [(4096, 1), (4096, 0), (4097, 0)],
      acc specDmaCopy 31 (leBytes 8 r.1 ++ leBytes 8 (hbmSize .f - 64) ++ leBytes 4 64 ++ leBytes 1 r.2 ++ zeros 3) (inMode .idle) = true) ∧
    (let s := inMode .idle
     s.host.up = false ∧ s.md.powered = true ∧ s.md.rstLow = false ∧ s.md.mode ≠ .dormant ∧ 31 < s.host.chans.length) ∧
    (let s := { inMode .idle with host := { up := true, gen := 6, width := 16, bme := true } }
     s.host.up = true ∧ s.host.gen = 6 ∧ s.host.width = 16 ∧ s.host.gen ≠ 4) ∧
    (let s := { inMode .idle with host := { holding := [false, true], due := [false, true], funcMask := false, masked := [], bme := true } }
     nth s.host.holding 1 false = true ∧ nth s.host.due 1 false = true ∧ s.host.funcMask = false ∧ 1 ∉ s.host.masked ∧ s.host.bme = true) ∧
    (let s := { inMode .idle with host := { holding := [true, false] } }
     nth s.host.holding 0 false = true ∧ nth s.host.due 0 false = false) ∧
    ((inMode .idle).host.up = true ∨ ((1 : Fin 3).val = 1 ∧ (inMode .idle).md.powered = true ∧ (inMode .idle).md.rstLow = false)) := by decide

/-- A request of port 0 to the first line. -/
def req (write : Bool) (len : Nat) : HbmReq := { port := 0, addr := 0, write, data := zeros len, len, age := 0, target := 0 }

theorem witness_HbmRequestsAreServed :
    (∀ r ∈ [req false 64, req true 64, req true 8, req true 63], ∀ ps ∈ [[], [0]],
      let s := { inMode .idle with hbm := { poisoned := ps } }
      s.md.mode ≠ .dormant ∧ s.md.mode ≠ .boot ∧ 0 < stackCount s.variant * 32 ∧ tget? s.hbm.queues 0 = none ∧ tget? s.hbm.held 0 = none ∧
      (stack s 0).sr = .active ∧ reqOk s 0 r = true ∧ r.age ≤ par s 0x0D02 r.port ∧ r.addr % 8 = 0 ∧
      s.hbm.poisoned.contains (r.addr / 64) = !ps.isEmpty ∧ (s.health.log.filter (fun e => !e.fatal)).length < 60) ∧
    (let s := { inMode .idle with health := { log := List.replicate 60 ⟨1, 0, false, 0, 0, false, 0, none, none, 0⟩ } }
     60 ≤ (s.health.log.filter (fun e => !e.fatal)).length) ∧
    (∀ r ∈ [29, 32, 39], ∀ ps ∈ [[], [0]],
      let s := { inMode .idle with hbm := { poisoned := ps } }
      reqOk s 0 { req false 64 with port := r } = true ∧ s.hbm.poisoned.contains 0 = !ps.isEmpty ∧ 3 < s.dus.length ∧
      (req false 64).age ≤ par s 0x0D02 r) ∧
    (∀ n ∈ [63, 64],
      let q := List.replicate n (req true 64)
      let s := { inMode .watch with hbm := { hbmStacks := List.replicate 4 { sr := .selfRefresh }, queues := [(0, q)] } }
      tget? s.hbm.queues 0 = some q ∧ tget? s.hbm.held 0 = none ∧ (stack s (0 / 32)).sr ≠ .active ∧ reqOk s 0 (req true 64) = true ∧
      (q.filter (fun x => x.write = true)).length = n) := by decide

theorem witness_HbmMaintenance :
    (let s := { inMode .idle with hbm := { banks := [(6143, { count := 9 }), (9000, {})] } }
     tget? s.hbm.banks 6143 = some { count := 9 } ∧
     ((s.hbm.banks.filter (fun b => decide (b.1 < 6144))).foldl (fun a b => a + b.2.count) 0) ≠ 0) ∧
    (let s := { inMode .idle with hbm := { hbmStacks := List.replicate 4 { trained := true } } }
     (stack s 3).trained = true ∧ (stack s 3).sr = .active) ∧
    (∀ r ∈ [SrState.active, .entering, .selfRefresh, .exiting], ∀ q ∈ [[], [(127, [req false 64])]],
      let s := { inMode .watch with hbm := { hbmStacks := List.replicate 4 { sr := r }, queues := q } }
      s.md.mode = .watch ∧ 3 < stackCount s.variant ∧ 3 < s.hbm.hbmStacks.length ∧ (stack s 3).sr = r ∧ stackBusy s 3 = !q.isEmpty) ∧
    (∀ ps ∈ [[], [0]], let s := { inMode .idle with hbm := { poisoned := ps } }
     liveOp s 0x0D40 = none ∧ liveOp s 0x0D41 = none ∧ s.md.mode ≠ .boot ∧ (stack s (stackOf s 0)).sr = .active) ∧
    acc specHbmRehash 0 (((facetDefaults .f).map (leBytes 8)).flatten ++ zeros 8) (inMode .idle) = true ∧
    acc specScrubFull 0 [] (inMode .idle) = true := by decide

/-! ### Witnesses: samples, gaps, blocks and frames -/

theorem witness_SamplesAreTaken :
    sampleOpen live 0 = true ∧ replaying live = false ∧ live.pend = [] ∧ alignReady live = false ∧ live.md.stopping = none ∧
    (chan live (domainOf live 0)).buf.ended = [] ∧ 15 < live.cue.above.length ∧
    (let s := setPar live 0x0818 15 0x0100
     par s 0x0818 15 = 0x0100 + domainOf s 0 ∧ sampleOpen s 0 = true ∧
     (lvlStep (nth s.cue.above 15 false) (parI s 0x0819 15) (parI s 0x081A 15) 2047).2.isSome = true) := by decide

theorem witness_ConverterCalibration :
    (chan (setChan live 3 (fun c => { c with losDue := some (true, 5) })) 3).losDue = some (true, 5) ∧
    (chan (setChan live 3 (fun c => { c with staleDue := [(2, 9)] })) 3).staleDue.find? (fun d => d.1 = 2) = some (2, 9) ∧
    (chan (setChan live 0 (fun c => { c with updates := [(1000, 1, [0])] })) 0).updates.any (fun u => u.1 ≤ sampleOrd live 0) = true ∧
    acc specConvCalRead 3 [] live = true ∧ acc specConvCalLoad 3 (leBytes 2 1 ++ zeros 414) live = true ∧
    (∀ m ∈ [15, 31, 4], acc specCalibrate 0 (leBytes 8 m) (inMode .idle) = true) ∧ 3 < (inMode .idle).clk.plls.length ∧ 4 / 4 ^ 1 % 4 ≠ 0 ∧
    live.pair.sync = false := by decide +kernel

/-- A marker of CH0. -/
def mark0 : GapMarker := { source := 0x0100, reason := 0, paired := false, first := 100, last := 163, sequence := 0 }

theorem witness_GapsAreMarked :
    ((chan live 0).running = true ∧ replaying live = false ∧ domainOf live 0 = 0 ∧ (chan live 0).buf.dropping = none ∧
     bufHeld (chan live 0).buf (ordNext live 0) 66536 = 65536 ∧ bufHeld (chan live 0).buf (ordNext live 0) 66535 < 65536 ∧ paired live = false) ∧
    (auxUp.aux.running = true ∧ auxUp.aux.buf.dropping = none ∧ bufHeld auxUp.aux.buf auxUp.aux.next (auxUp.aux.next + 4096) = 4096) ∧
    (let s := setTiuIn live 31 (fun x => { x with issued := 600, fifo := List.replicate 512 { number := 100, t := 0, source := 0, ord := 0, frac := 0, time := 0, flags := 0 } })
     (tiuIn s 31).dropping = none ∧ (tiuIn s 31).issued = 600 ∧ 512 ≤ (tiuIn s 31).fifo.length) ∧
    (let s := setChan live 0 (fun c => { c with count := 1024, buf := { dropping := some 1024, found := 1030 } })
     (chan s 0).buf.dropping = some 1024 ∧ ordNext s 0 = 1024 ∧ 1088 % 64 = 0 ∧ paired s = false ∧ (chan s 0).buf.found < 1088 ∧
     bufHeld (chan s 0).buf (ordNext s 0) 1024 ≤ bufDepth s 0 / 2 ∧ s.md.stopping = none ∧ s.pend = [] ∧ (chan s 0).buf.ended = [] ∧
     (chan s 0).running = true ∧ s.pair.started = false) ∧
    (let s := setChan live 0 (fun c => { c with buf := { dropping := some 33728, found := 33770 } })
     (chan s 0).buf.dropping = some 33728 ∧ ordNext s 0 < 33728 ∧ (chan s 0).buf.found < 33792 ∧ 33792 % 64 = 0 ∧
     bufHeld (chan s 0).buf (ordNext s 0) 33728 ≤ bufDepth s 0 / 2 ∧ s.md.stopping = none ∧ s.pend = []) ∧
    (∀ n ∈ [60, 64], let s := { auxUp with aux := { auxUp.aux with buf := { dropping := some 64, found := 70 }, next := n } }
     s.aux.buf.dropping = some 64 ∧ bufHeld s.aux.buf s.aux.next 64 ≤ 2048 ∧ s.aux.buf.found < 128 ∧ 128 % 64 = 0 ∧ s.aux.buf.ended = [] ∧
     s.aux.next = n) ∧
    (let s := { live with tiu := { live.tiu with inputs := lmod live.tiu.inputs 31 (fun x => { x with dropping := some 64, issued := 128 }) } }
     (tiuIn s 31).dropping = some 64 ∧ (tiuIn s 31).issued = 128 ∧ (tiuIn s 31).fifo.length ≤ 256 ∧ 128 % 64 = 0) ∧
    (let s := setZoom live 31 (fun z => { z with running := true })
     (nth s.zooms 31 {}).running = true ∧ (nth s.zooms 31 {}).later = [] ∧ zoomChan s 31 = mark0.source % 256 ∧
     (zoomGapRange s 31 mark0).isSome = true) ∧
    (stream live 15).running = false ∧ (stream live 15).later = [] ∧
    (let s := setStream (setPar live 0x0702 15 0x0200) 15 (fun st => { st with running := true })
     (stream s 15).running = true ∧ isZoomCode (xfSrc s 15) = true ∧ mark0.first ≤ mark0.last ∧ (stream s 15).base ≤ mark0.last ∧ (stream s 15).later = []) := by decide

/-- CH0's frames of 64 samples on stream 0, of which n have come. -/
def framing (n : Nat) : State :=
  let s := setPar (setPar live 0x0704 0 6) 0x0702 0 0x0100
  setStream s 0 (fun st => { st with running := true, buf := List.replicate n { i := 0, q := 0 } })

theorem witness_BlocksAndFrames :
    (let s := setZoom live 31 (fun z => { z with running := true, outs := List.replicate 64 { i := 0, q := 0 } })
     zoomBlocked s 31 = false ∧ 64 ≤ (nth s.zooms 31 {}).outs.length) ∧
    (∀ l ∈ [[], [({ at_ := 2000, changes := [], cfg := [] } : ZoomTurn)]],
     let s := setZoom live 31 (fun z => { z with running := true, stopAt := some 0, outs := [{ i := 1, q := 0 }], later := l })
     zoomBlocked s 31 = false ∧ (nth s.zooms 31 {}).outs.length < 64 ∧ zoomDone s 31 = true ∧ (nth s.zooms 31 {}).running = true ∧
     (nth s.zooms 31 {}).later = l) ∧
    zoomDone live 31 = false ∧ zoomBlocked live 31 = false ∧
    (let s := setPar (setPar { live with caps := lmod live.caps 0 (fun c => { c with running := true, blocked := true }) } 0x0902 0 (0x0200 + 31)) 0x0901 0 1
     zoomBlocked s 31 = true) ∧
    (let s := framing 0
     (stream s 0).running = true ∧ (stream s 0).hops = [] ∧ (stream s 0).stopAt = none ∧ frameMarked s 0 = true ∧ frameHeld s 0 = false ∧
     xfP s 0 = 1 ∧ frameInputs s 0 0 = none) ∧
    frameHeld (setPar { framing 0 with caps := lmod live.caps 0 (fun c => { c with running := true, blocked := true }) } 0x0902 0 0x0300) 0 = true := by
  decide

theorem witness_BlocksAndFrames_inputs : (frameInputs (framing 64) 0 0).isSome = true ∧ frameHeld (framing 64) 0 = false := by decide

/-! ### Witnesses: windows, masks, cue sheets -/

/-- An image of one cue without conditions: it fires every `min`, and times out after `max`. -/
def img1 (min max : Nat) : List Byte :=
  leBytes 2 1 ++ leBytes 1 1 ++ zeros 13 ++ zeros 66 ++ leBytes 2 1 ++ leBytes 8 min ++ leBytes 8 max ++ zeros 12

theorem witness_WindowsMasksAndCues :
    acc specXfWindowLoad 15 (leBytes 4 (2 ^ 20 - 1) ++ leBytes 2 1 ++ zeros 2 ++ leBytes 4 (2 ^ 18 - 1)) (inMode .idle) = true ∧
    acc specXfWindowRead 15 (leBytes 4 0 ++ leBytes 2 1018 ++ zeros 2) (inMode .idle) = true ∧
    (∀ t ∈ [0, 1], acc specMaskLoad 15 (leBytes 2 t ++ leBytes 2 1 ++ leBytes 4 65535 ++ leBytes 2 7) (inMode .idle) = true) ∧
    15 < (inMode .idle).cue.masks.length ∧
    (∀ t ∈ [0, 3], acc specMaskRead 15 (leBytes 2 t ++ leBytes 2 2036 ++ leBytes 4 0) (inMode .idle) = true) ∧
    (nth (inMode .idle).cue.masks 15 {}).active = 0 ∧
    acc specMaskSwap 15 [] (inMode .idle) = true ∧ (stream (inMode .idle) (maskStream (inMode .idle) 15)).running = false ∧
    (let s := setPar (setPar (setPar (framing 64) 0x0820 15 0x0300) 0x0703 0 0) 0x0401 0 4000000000
     acc specMaskSwap 15 [] s = true ∧ (stream s (maskStream s 15)).running = true ∧ accAt specMaskSwap 15 70000000 [] s = true) ∧
    acc specCueLoad 7 (img1 1 0) (inMode .idle) = true ∧ acc specCueRead 7 [] (inMode .idle) = true ∧
    acc specCueTask 0 (leBytes 1 255 ++ leBytes 1 7 ++ zeros 6) live = true ∧ replaying live = false ∧ 7 < live.cue.sheets.length ∧
    accAt specCueTask 0 70000000 (leBytes 1 255 ++ leBytes 1 7 ++ zeros 6) live = true ∧
    acc specCueHost 0 (leBytes 8 255) live = true ∧ accAt specCueHost 0 70000000 (leBytes 8 255) live = true := by decide +kernel

/-- An image of one cue that waits for a rise of level detector 0, and times out after 2,000. -/
def img2 : List Byte :=
  leBytes 2 1 ++ leBytes 1 1 ++ zeros 13 ++ [2, 0, 2] ++ zeros 63 ++ leBytes 2 1 ++ leBytes 8 0 ++ leBytes 8 2000 ++ zeros 12

/-- An item of level detector 0. -/
def item (ord : Nat) : Item := { kind := 2, inst := 0, ord, tests := [2] }

/-- Sheet 7 armed at ordinal 1,000 with an image, and the cue channel up to ordinal 5,000. -/
def sheeted (img : List Byte) : State :=
  let s := setChan live 0 (fun c => { c with count := 5000 })
  { s with cue := { s.cue with sheets := lmod s.cue.sheets 7 (fun sh =>
      { sh with image := img, core := { sh.core with st := .armed, e := 1000 } }) } }

theorem witness_CuesAreRehearsedAndPlayed :
    (let s := { live with cue := { live.cue with arriving := [item (1000 + 8193)] } }
     s.cue.arriving = item 9193 :: [] ∧ rehearseHeld s (item 9193) = true) ∧
    (∀ n ∈ [999, 1000, 9192], let s := { live with cue := { live.cue with arriving := [item n] } }
     s.cue.arriving = item n :: [] ∧ rehearseHeld s (item n) = false) ∧
    (let s := sheeted (img1 1 0)
     running s (cueChan s) = true ∧ s.cue.played ≤ 1001 ∧ 1001 < playBound s ∧ nextAct s = some 1001) ∧
    (let s := sheeted img2
     running s (cueChan s) = true ∧ s.cue.played ≤ 3000 ∧ 3000 < playBound s ∧ nextAct s = some 3000 ∧
     (sheetOf s 7).core.st = .armed ∧ cueMax (imgCue (sheetOf s 7).image (sheetOf s 7).core.cue) ≠ 0 ∧
     ((sheetOf s 7).core.e + (cueMax (imgCue (sheetOf s 7).image (sheetOf s 7).core.cue) : Int)).toNat = 3000) ∧
    (playBound live ≤ 1000 ∧ running live (cueChan live) = true) ∧
    (let s := setPar live 0x080C 7 500
     running s (cueChan s) = true ∧ par s 0x080C 7 ≠ 0 ∧ par s 0x080B 7 + nth s.cue.timerNext 7 0 * par s 0x080C 7 ≤ ordNext s (cueChan s)) := by
  decide +kernel

/-! ### Witnesses: capture units, the store, START and STOP -/

/-- Sixteen capture units, one as given, raw on CH0, in RECORD. -/
def capOn (u : Nat) (c : CapUnit) : State :=
  setPar (setPar { live with caps := lmod live.caps u (fun _ => c) } 0x0902 u 0x0100) 0x0901 u 1

/-- A CONTINUOUS record in progress. -/
def rec0 : OpenRec := { mode := 2, first := 0, segs := [{ first := 0, last := 99 }] }

theorem witness_CaptureUnits :
    acc specCapArm 0 (leBytes 8 32769) live = true ∧ accAt specCapArm 0 70000000 (leBytes 8 32769) live = true ∧ 15 < live.caps.length ∧
    (par live 0x0903 15 ≠ 2 ∧ (cap (capOn 15 { armed := true }) 15).armed = true ∧ bit 32769 15 = true) ∧
    acc specCapDisarm 0 (leBytes 8 32769) live = true ∧ accAt specCapDisarm 0 70000000 (leBytes 8 32769) live = true ∧
    (let s := capOn 15 { running := true, recs := [rec0] }
     (cap s 15).recs = [rec0] ∧ rec0.segs = [{ first := 0, last := 99 }] ∧ rec0.final = false ∧ rec0.until_ = none ∧ (0 : Nat) ≤ 99 ∧
     99 < Nat.min s.cue.played (capProgress s 15) ∧ par s 0x0909 15 = 0) ∧
    (∀ g ∈ [1000, 1001], let s := capOn 15 { running := true, stepPend := some (g, 1) }
     (cap s 15).running = true ∧ (cap s 15).stepPend = some (g, 1) ∧ decide (capProgress s 15 < g) = decide (g = 1001) ∧ capKind s 15 ≠ 3) ∧
    (let s := setPar (capOn 15 { running := true, stepPend := some (1, 1) }) 0x0902 15 0x0300
     (cap s 15).running = true ∧ (cap s 15).stepPend = some (1, 1) ∧ capKind s 15 = 3) ∧
    (let s := setPar (setPar (capOn 15 { running := true, playedBytes := 760 }) 0x0911 15 1000) 0x090E 15 4
     s.pair.role = 0 ∧ 7500 < backlog01 s ∧ stepDownUnit s = some 15) ∧
    (let s := setPar (capOn 15 { running := true, playedBytes := 1, step := 1 }) 0x0911 15 1000
     backlog01 s < 2500 ∧ (cap s 15).step ≠ 0) := by decide +kernel

/-- A formatted store in use with an active member of 10 slots. -/
def stored (m : Nat) (slots : Nat := 10) : State :=
  let s := inMode .idle
  { s with store := { s.store with state := 2, formatted := true, members := lmod s.store.members m (fun _ => { state := 1, slots }) } }

/-- The same with an extent. -/
def withExt (e : Extent) (s : State) : State := { s with store := { s.store with extents := [e] } }

/-- An extent of unit 15, with copies. -/
def ext (state : Nat) (copies : List CopyRec := []) : Extent := { serial := 4, unit := 15, state, copies }

theorem witness_ExtentsAndJournal :
    (openExtent (stored 7).store 15 = none) ∧
    (let s := withExt (ext 0) (stored 7)
     openExtent s.store 15 = some (ext 0) ∧ shadows s = false ∧ par s 0x0A04 0 ≠ 1 ∧ s.store.mirror = false ∧
     allocate s.store s.store.cycle [] = some (7, 1)) ∧
    (let s := withExt (ext 0) (stored 7 0)
     openExtent s.store 15 = some (ext 0) ∧ allocate s.store s.store.cycle [] = none) ∧
    (let s := { withExt (ext 0) (stored 7) with pair := { role := 2 } }
     openExtent s.store 15 = some (ext 0) ∧ shadows s = true) ∧
    (let s := { stored 7 with store := { (stored 7).store with jseq := 3, committed := 2 } }
     s.store.committed < s.store.jseq ∧ activeMembers s.store ≠ [] ∧ s.store.state = 2 ∧ s.store.committed ≤ s.store.jseq) ∧
    (let c : CopyRec := { member := 7, slot := 1 }
     let s := withExt (ext 1 [c]) (stored 7)
     findExtent s.store 4 = some (ext 1 [c]) ∧ (ext 1 [c]).jseq ≤ s.store.committed ∧ c.failed = false ∧ c.done = false ∧ c.retried = false ∧
     (∀ x ∈ lmod [c] 0 (fun c => { c with done := true }), x.done = true ∨ x.failed = true)) ∧
    (let c : CopyRec := { member := 7, slot := 1 }
     let s := withExt (ext 1 [c, c]) (stored 7)
     (∃ x ∈ lmod [c, c] 1 (fun c => { c with done := true }), x.done = false ∧ x.failed = false) ∧ 1 < (ext 1 [c, c]).copies.length ∧
     findExtent s.store 4 = some (ext 1 [c, c])) ∧
    (let c : CopyRec := { member := 0, slot := 1 }
     allocate (stored 7).store 0 ((ext 1 [c]).copies.map (·.member)) = some (7, 1)) ∧
    (let c : CopyRec := { member := 7, slot := 1, retried := true }
     c.done = false ∧ c.failed = false ∧ c.retried = true ∧ (ext 1 [c]).copies.length = 1) ∧
    (nth (stored 7).store.members 7 {}).state = 1 := by decide +kernel

/-- The header of a raw record of CH0 at its rate, from ordinal 4,096. -/
def hdr0 : List Byte :=
  zeros 48 ++ leBytes 8 4096 ++ zeros 40 ++ leBytes 8 (1000 * par State.reset 0x0401 0) ++ zeros 8 ++ leBytes 8 1 ++ leBytes 8 1 ++ zeros 384

/-- A sealed raw record. -/
def raw0 : StoreRec := { number := 1, unit := 0, state := 2, header := hdr0, source := 0x0100, sealed := true }

/-- A drive on port 0 with block 0 as given, which a mount reads. -/
def mount (block : List Byte) : MountFacts :=
  { ports := [{ present := true, failing := false, lba := 4096, extras := false, capacity := 2 ^ 40, mdts := 2 ^ 20, superA := block, superB := [] }]
    extents := [], recovered := [], headers := [] }

/-- A superblock of a store with one member, mirrored. -/
def super0 : List Byte := superblock { (stored 0).store with mirror := true, storeId := 5, clean := true } 0

theorem witness_StoreCommands :
    (let s := { inMode .idle with store := { members := lmod (inMode .idle).store.members 0 (fun _ => { state := 1, slots := 4 }), state := 5 } }
     acc specStoreFormat 0 (leBytes 8 1) s = true) ∧
    acc specStoreMount 0 [] (inMode .idle) = true ∧
    mountSuper (inMode .idle) (mount []) = none ∧ 0 < (inMode .idle).store.members.length ∧
    (let s := { inMode .idle with store := { (inMode .idle).store with portsUp := true } }
     mountSuper s (mount super0) = some super0 ∧ portState s (mount super0) (some super0) 0 = 1 ∧
     ∀ m ∈ List.range 8, portState s (mount []) (some super0) m ≠ 1) ∧
    acc specStoreUnmount 0 [] (stored 7) = true ∧ activeMembers (stored 7).store ≠ [] ∧
    acc specStoreList 0 (leBytes 8 0 ++ leBytes 8 7) (stored 7) = true ∧
    acc specStoreDelete 0 (leBytes 8 0 ++ leBytes 8 (2 ^ 64 - 1)) (stored 7) = true ∧
    acc specStoreExport 0 (leBytes 8 0 ++ leBytes 8 0 ++ leBytes 8 31) (stored 7) = true ∧
    (let s := { stored 7 with md := (inMode .analyse).md, store := { (stored 7).store with records := [raw0] } }
     acc specReplay 0 (leBytes 8 1 ++ zeros 8) s = true ∧ rawRec s 1 = some raw0 ∧ s.chans.length = 4) := by decide +kernel

theorem witness_StartAndStop :
    (let s := { setPar (inMode .analyse) 0x0402 3 1 with health := { factor := [16384, 16384, 16384, 16384], replanF := [16384, 16384, 16384, 16384] } }
     acc specStart 0 [] s = true ∧ s.chans.length = 4 ∧ chanOn s true 3 = true ∧ chanOn s true 0 = false) ∧
    acc specStop 0 [] (inMode .analyse) = true ∧ anyRunning (inMode .analyse) = false ∧
    acc specStop 0 [] live = true ∧ anyRunning live = true ∧ accAt specStop 0 70000000 [] live = true ∧
    (chan live 0).running = true ∧ domainOf live 0 = cueChan live ∧ live.md.stopping = none ∧
    (∀ c, c < 4 → (chan live c).buf.dropping = none) ∧
    (∀ c, c < 4 → (chan live c).running = true → stopTarget live (ordNext live (cueChan live)) c = ordNext live (domainOf live c)) ∧
    (let s := setChan (setPar live 0x0401 3 5000000000) 3 (fun c => { c with running := true, count := 100 })
     anyRunning s = true ∧ s.md.stopping = none ∧ domainOf s 3 = 3 ∧ ordNext s 3 < stopTarget s (ordNext s (cueChan s)) 3) ∧
    (let s := { live with md := { live.md with stopping := some 1010 } }
     acc specStop 0 [] s = true ∧ anyRunning s = true ∧ s.md.stopping = some 1010) := by decide +kernel

/-! ### Witnesses: density units, display, health, errors, ageing -/

/-- A frame fed to density unit 3. -/
def fed (flags : Nat) : FedFrame := { index := 0, ord := 100, flags, pw := [1, 2] }

/-- Density unit 3 with a queue. -/
def duQ (q : List FedFrame) (pauses : List (Nat × Option Nat) := []) : State :=
  setDu live 3 (fun d => { d with running := true, queue := q, pauses })

theorem witness_DensityUnits :
    (du live 3).queue = [] ∧ (du (duQ [fed 0]) 3).queue = fed 0 :: [] ∧
    (pausedAt (duDue (du (duQ [fed 0] [(100, none)]) 3) 100) 100 = true) ∧
    (pausedAt (duDue (du (duQ [fed 8]) 3) 100) 100 = false ∧ bit (fed 8).flags 3 = true ∧ bit (fed 4).flags 3 = false) ∧
    (let s := setPar (duQ [fed 0]) 0x0B0D 3 2
     ((duDue { du s 3 with queue := [] } 100).n + 1) % par s 0x0B0D 3 ≠ 0) ∧
    acc specDuPaletteLoad 3 (leBytes 2 1023 ++ leBytes 2 1 ++ zeros 4 ++ leBytes 4 77) (inMode .idle) = true ∧
    acc specDuMapLoad 3 (leBytes 2 1023 ++ leBytes 2 1 ++ zeros 4 ++ leBytes 4 77) (inMode .idle) = true ∧
    acc specDuPaletteSwap 3 [] (inMode .idle) = true ∧ (du (inMode .idle) 3).running = false ∧
    acc specDuPaletteSwap 3 [] (duQ []) = true ∧ accAt specDuPaletteSwap 3 70000000 [] (duQ []) = true ∧
    acc specDuClear 3 [] (duQ []) = true ∧ acc specDuClear 3 [] live = true ∧ accAt specDuClear 3 70000000 [] (duQ []) = true ∧
    (du (duQ []) 3).running = true ∧ acc specDuLatticeRead 3 (leBytes 8 31) (duQ []) = true := by decide +kernel

/-- Display output o as given. -/
def dispOn (o : Nat) (d : DisplayOut) : State := setDisp (inMode .idle) o (fun _ => d)

theorem witness_DisplayOutputs :
    ((disp (dispOn 2 { running := true }) 2).running = true ∧ (disp (inMode .idle) 2).running = false) ∧
    (∀ b ∈ [true, false], ∀ a ∈ [true, false], let s := dispOn 0 { running := true, trained := true, lanes := 4, rate := 3, blanked := b, aborted := a }
     (disp s 0).running = true ∧ (disp s 0).scanY < dispHeight s 0 ∧ videoOn s 0 = true ∧ (disp s 0).blanked = b ∧ (disp s 0).aborted = a) ∧
    (let s := inMode .idle
     fitted s.variant 0x0D 1 = true ∧ dispPowered s.md.mode = true ∧ (disp s 1).hpd = false ∧
     Nat.min (laneStep 4) (laneStep (bits (par s 0x0B25 1) 2 0)) ≠ 0) ∧
    (let s := dispOn 1 { hpd := true, trained := true }
     (disp s 1).hpd = true ∧ (disp s 1).trained = true) ∧
    acc specDispClutLoad 5 (leBytes 2 255 ++ leBytes 2 1 ++ zeros 4 ++ leBytes 4 77) (inMode .idle) = true ∧
    acc specDispEdidRead 1 (leBytes 8 255) (dispOn 1 { hpd := true }) = true := by decide +kernel

theorem witness_GaugesAndRegulators :
    managerUp (inMode .idle) = true ∧ (List.replicate 64 16384).length = 64 ∧ (inMode .idle).health.failed = [] ∧
    (∀ f ∈ List.replicate 64 16384, gaugeBroken f = false) ∧
    (let s := { inMode .idle with health := { waiting := [false, false, false, true] } }
     managerUp s = true ∧ nth s.health.waiting 3 false = true) ∧
    (10 * par (inMode .idle) 0x1113 0 : Int) ≤ 1500 ∧ (inMode .idle).md.everIdle = true := by decide +kernel

theorem witness_AgeingAndReplan :
    (inMode .idle).md.powered = true ∧
    (let s := { inMode .idle with health := { minutes := 1440 } }
     managerUp s = true ∧ 1440 ≤ s.health.minutes) ∧
    acc specHmAgeingRead 0 (leBytes 4 0 ++ leBytes 4 63) (inMode .idle) = true ∧
    acc specMarginReplan 0 (leBytes 8 1) (inMode .idle) = true ∧
    ((inMode .idle).md.transit = none ∧ liveOp (inMode .idle) 0x1140 = none ∧ (liveOps (inMode .idle)).length < 16 ∧
     par (setPar (inMode .idle) 0x1110 0 1) 0x1110 0 ≠ 0 ∧ (∀ n ∈ (inMode .idle).health.lowRuns, n < 60)) ∧
    (let s := { inMode .idle with health := { lowRuns := [0, 0, 60, 0, 0] } }
     ∃ n ∈ s.health.lowRuns, 60 ≤ n) := by decide +kernel

/-- An entry of the queue of units in error. -/
def eu : ErrUnit := { kind := 3, inst := 15, code := 0x1182, seq := 9 }

theorem witness_ErrorsAreLogged :
    managerUp (inMode .idle) = true ∧
    ((errKinds 0x1182).contains 3 = true ∧ errUnitFitted (inMode .idle) 3 15 = true ∧ errUnitFitted { inMode .idle with variant := .s } 3 15 = false ∧ isOffline (inMode .idle) 3 15 = false ∧
     (inMode .idle).health.queue = []) ∧
    (let s := { inMode .idle with health := { queue := [eu] } }
     s.health.queue.find? (fun u => decide (u.kind = 3) && decide (u.inst = 15)) = some eu ∧ isOffline s 3 15 = false ∧ s.health.queue = eu :: []) ∧
    (let u : ErrUnit := { eu with kind := 6, inst := 255, code := 0x1183 }
     let s := { inMode .idle with health := { queue := [u] } }
     (errKinds 0x1183).contains 6 = true ∧ errUnitFitted s 6 255 = true ∧ isOffline s 6 255 = false ∧
     s.health.queue.find? (fun u => decide (u.kind = 6) && decide (u.inst = 255)) = some u ∧ (cluster s (clusterOf 255)).spare = 0) ∧
    (errPlain 0x1281 = true ∧ (errKinds 0x1281).contains 0 = false) ∧
    ((inMode .idle).md.mode ≠ .safe ∧ (inMode .idle).md.transit = none) ∧
    acc specErrlogRead 0 [] (inMode .idle) = true ∧ acc specErrlogClear 0 (leBytes 8 3) (inMode .idle) = true ∧
    acc specErrlogClear 0 (leBytes 8 7) (inMode .safe) = true := by decide +kernel

/-! ### Witnesses: the pair, security, engine commands -/

/-- A device of a pair in a mode, with the link up. -/
def paired2 (m : Mode) (role : Nat) (f : PairUnit → PairUnit := id) : State :=
  let s := inMode m
  { s with pair := f { s.pair with role, link := true, lanes := 8, heartbeat := true, peerAlive := true, sync := true } }

theorem witness_PairLiveness :
    (let s := paired2 .analyse 2
     managerUp s = true ∧ s.pair.peerAlive = true ∧ s.pair.heartbeat = true ∧ s.pair.link = true ∧ linkMode s = true) ∧
    ({ State.reset with pair := { aliveToggling := true } } : State).pair.aliveToggling = true ∧
    (let s := paired2 .analyse 1 (fun p => { p with heartbeat := false, peerAlive := false })
     s.pair.heartbeat = false ∧ s.pair.peerAlive = false ∧ s.pair.role ≠ 0 ∧ s.pair.role = 1) ∧
    (let s := paired2 .analyse 2 (fun p => { p with heartbeat := false, peerAlive := false })
     eligible s = true ∧ s.pair.peerAlive = false ∧ s.pair.heartbeat = false) ∧
    (let s := paired2 .analyse 1 (fun p => { p with link := false, term := 3 })
     s.pair.link = false ∧ linkMode s = true ∧ s.pair.role = 1 ∧ s.pair.term < 4 ∧ ¬ (s.pair.term < 3 ∨ (s.pair.term = 3 ∧ 9 < s.serial))) := by
  decide +kernel

/-- CH0 of a device runs at ordinal 70,000. -/
def runs (s : State) : State := setChan s 0 (fun c => { c with running := true, count := 70000 })

theorem witness_PairReplication :
    (anyRunning (runs (paired2 .analyse 2)) = true ∧ (paired2 .analyse 2).pair.link = true) ∧
    (let s := runs (paired2 .analyse 2)
     let p := pk 6 0 (leBytes 8 69999) 1
     s.pair.role = 2 ∧ s.pair.sync = true ∧ forwardLate p s = true) ∧
    (let s := runs (paired2 .analyse 2)
     let p := pk 0x0854 0 (leBytes 8 90000 ++ leBytes 8 255) 1
     forwardLate p s = false ∧ (replicate 0x0854 p (.bytes []) s).map (·.1) = some stOK ∧ stOK ≠ stBAD_STATE) ∧
    anyRunning (paired2 .analyse 2) = false ∧
    (let s := setPar (runs (paired2 .analyse 2)) 0x0902 15 0x0100
     s.pair.role = 2 ∧ s.pair.sync = true ∧ capProgress s 15 ≤ 70000) ∧
    ((paired2 .analyse 1).pair.role = 1 ∧ (paired2 .analyse 1).pair.sync = true) ∧
    (imageOpen (withOp (op 0x1240 4) (paired2 .idle 2)) = true ∧ imagePar (0x0401 * 65536) = true) := by decide +kernel

/-- A check extent. -/
def chk (poison : Bool) (digests : List (Nat × Nat)) : CheckFacts :=
  { codes := [], flags := [], coefs := [], updates := [], phases := [], digests, poison, capacity := true }

/-- The extent that a LEAD gathers. -/
def draft0 (lost : Bool) : ExtentDraft := { chan := 0, x := 0, lost }

theorem witness_PairAlignmentAndChecks_sent :
    (∀ b ∈ [true, false],
      let s := runs (paired2 .analyse 1 (fun p => { p with draft := some (draft0 b) }))
      s.pair.draft = some (draft0 b) ∧ (draft0 b).lost = b ∧ (chan s 0).running = true ∧ s.pair.nextX + 65536 ≤ ordNext s 0) ∧
    (let s := setPar (paired2 .record 2 (fun p => { p with verdict := true })) 0x1205 0 1
     s.pair.verdict = true ∧ s.pair.link = true ∧ s.pair.role = 2 ∧ par s 0x1205 0 = 1 ∧ s.md.mode = .record ∧ s.md.transit = none) := by
  decide +kernel

theorem witness_PairAlignmentAndChecks :
    (let s := paired2 .analyse 2 (fun p => { p with started := true })
     s.pair.role ≠ 0 ∧ s.pair.link = true ∧ s.pair.started = true ∧ s.pair.mine = none ∧ s.pair.theirs = none ∧ s.pair.heard.length < 16) ∧
    (let s := paired2 .analyse 2 (fun p => { p with started := true, heard := List.replicate 16 655360 })
     s.pair.mine = none ∧ s.pair.theirs = none ∧ 16 ≤ s.pair.heard.length) ∧
    (let s := paired2 .analyse 2 (fun p => { p with started := true, mine := some 5, e := some 65536 })
     s.pair.mine = some 5 ∧ s.pair.theirs = none ∧ s.pair.e.isSome = true) ∧
    (let s := runs (paired2 .analyse 2 (fun p => { p with started := true, mine := some 5, theirs := some 9, e := some 65536 }))
     alignReady s = true ∧ s.pair.role = 2) ∧ alignReady (paired2 .analyse 2) = false ∧
    (let s := runs (paired2 .analyse 1)
     s.pair.link = true ∧ s.pair.role = 1 ∧ s.pair.sync = true ∧ s.pair.checkChan = 0 ∧ (chan s 0).running = true ∧
     s.pair.nextX + 65536 ≤ ordNext s 0 ∧ s.pair.draft = none) ∧
    (let s := paired2 .analyse 2
     s.pair.link = true ∧ s.pair.role = 2 ∧ s.pair.sync = true ∧ (chk true []).poison = true ∧ (chk false []).poison = false ∧
     (chk false []).capacity = true ∧ (∀ d ∈ (chk false []).digests, d ∈ checkDigests s 0 0 (chk false [])) ∧
     (∃ d ∈ (chk false [(0xFFFF, 0)]).digests, d ∉ checkDigests s 0 0 (chk false [(0xFFFF, 0)]))) ∧
    (let s := paired2 .analyse 1 (fun p => { p with verdict := true })
     s.pair.verdict = true ∧ s.pair.role = 1) ∧
    (let s := paired2 .analyse 1 (fun p => { p with peerRole := 2, peerMode := 2, peerPps := true })
     acc specPairAlign 0 (leBytes 8 2) { s with clk := { s.clk with ppsQual := true } } = true) ∧
    (let s := paired2 .idle 2 (fun p => { p with peerRole := 1, peerMode := 2 })
     acc specPairResync 0 [] s = true) := by decide +kernel

/-- A key blob for slot k of this device, signed by key 3. -/
def blob : List Byte :=
  let b := [0x4F, 0x4C, 0x4B, 0x42] ++ leBytes 2 1 ++ leBytes 2 3 ++ leBytes 8 0 ++ leBytes 8 77 ++ zeros 264
  b ++ leBytes 4 (crc32c b)

theorem witness_SecurityCommands :
    acc specSelfTest 0 (leBytes 8 2047) (inMode .service) = true ∧ 3 < (inMode .service).clk.plls.length ∧
    acc specFwUpdate 0 (leBytes 8 64 ++ leBytes 4 8388608 ++ leBytes 4 31) (inMode .idle) = true ∧
    acc specFwCommit 0 [] { inMode .idle with sec := { trial := true, rollback := 2 } } = true ∧
    acc specDbgChallenge 0 [] (inMode .idle) = true ∧
    (let p := pk 0x1421 0 (leBytes 8 1 ++ zeros 120)
     tokenDenied p (give 0x1421 p { inMode .idle with sec := { nonce := some (zeros 16) } }) = true) ∧
    acc specKeyGenerate 0 [3] (inMode .idle) = true ∧
    (let s := { inMode .idle with sec := { revoked := [3] } }
     acc specKeyImport 0 (leBytes 8 3 ++ blob) s = true ∧ blobDenied s ((leBytes 8 3 ++ blob).drop 8) = true) ∧
    acc specKeyErase 0 [3] (inMode .idle) = true ∧ acc specKeyImportPubkey 0 [] (inMode .idle) = true := by decide +kernel

/-- A debug token for this device and the nonce of zeros. -/
def token : List Byte := zeros 24 ++ leBytes 4 1 ++ zeros 4 ++ zeros 96

/-- Checks do not ask for a signature where the command is not denied. -/
theorem checks_denied (c : CmdSpec) (s : State) (p : Packet)
    (h : c.denied s p.inst.toNat (if pktAt p then (payloadOf p).drop 8 else payloadOf p) = false) :
    checks true c s p = checks true { c with denied := fun _ _ _ => false } s p := by
  simp only [checks, h]

/-- Where the opaque verification accepts the token, DBG_UNLOCK is accepted. -/
theorem witness_SecurityCommands_signed (h : Config.verify 0 (token.take 32) (token.drop 32) = true) :
    let p := pk 0x1421 0 token
    accepted specDbgUnlock p (give 0x1421 p { inMode .idle with sec := { nonce := some (zeros 16) } }) = true := by
  intro p
  have e : (if pktAt p then (payloadOf p).drop 8 else payloadOf p) = token := by decide +kernel
  have d : ∀ s : State, s.serial = 0 → s.sec.nonce = some (zeros 16) → s.sec.revoked = [] →
      specDbgUnlock.denied s p.inst.toNat (if pktAt p then (payloadOf p).drop 8 else payloadOf p) = false := by
    intro s h1 h2 h3
    have h4 : fld token 0 8 = 0 := by decide +kernel
    have h5 : (token.drop 8).take 16 = zeros 16 := by decide +kernel
    rw [e]
    simp [specDbgUnlock, tokenOk, signedByAny, h1, h2, h3, h4, h5, h, List.range, List.range.loop]
  unfold accepted
  rw [checks_denied _ _ _ (d _ rfl rfl rfl)]
  decide +kernel

/-- Where the opaque verification accepts a blob, and it unwraps, KEY_IMPORT stores its key. -/
theorem witness_SecurityCommands_unwrapped (h : Config.verify 3 (blob.take 192) ((blob.drop 192).take 96) = true)
    (h2 : Config.unwraps blob = true) : blobDenied (inMode .idle) blob = false := by
  have h3 : fld blob 6 1 = 3 := by decide +kernel
  simp only [blobDenied, h3, h, h2]
  decide +kernel

/-- A program of one bundle and eight bytes of data. -/
def prog0 : List Byte :=
  let h := leBytes 4 0x53545247 ++ leBytes 2 1 ++ leBytes 2 0 ++ leBytes 4 8 ++ leBytes 2 0 ++ leBytes 2 1 ++ leBytes 4 8 ++ zeros 40
  let t := leBytes 8 0x1234 ++ leBytes 8 5
  h ++ leBytes 4 (crc32c (h ++ zeros 4 ++ t)) ++ t

/-- A map of engines 0 and 255. -/
def map2 : List Byte := [1] ++ zeros 30 ++ [128]

/-- Engines 0 and 255 in a state, with a program, in ANALYSE. -/
def engs (x : Engine) : State :=
  let s := inMode .analyse
  { s with engines := [(0, x), (255, x)], health := { factor := [16384, 16384, 16384, 16384], replanF := [16384, 16384, 16384, 16384] } }

theorem witness_EngineCommands :
    acc specAeFaultRead 255 [] (inMode .idle) = true ∧
    (∀ k ∈ [0, 1], acc specAeResume 255 (leBytes 8 k) (engs { st := .faulted, inexc := true, fault := { ({} : Engine).fault with element := 5 } }) = true) ∧
    (let own := leBytes 8 64 ++ leBytes 4 80 ++ leBytes 1 31 ++ zeros 3 ++ map2
     let s := consume (give 0x0C30 (pk 0x0C30 0 own) (inMode .idle)) (pk 0x0C30 0 own)
     acc specAeLoad 0 own (inMode .idle) = true ∧ padTo 80 prog0 = prog0 ∧ programBad s prog0 = false ∧
     (imgPorts prog0).any (fun x => portAbsent s x.2) = false ∧ engineMap own 16 = [0, 255] ∧
     imageConflicts s [0, 255] (imgProgram prog0) = false) ∧
    acc specAeStart 0 map2 (engs { loaded := true }) = true ∧ engineMap map2 0 = [0, 255] ∧
    (let s := setChan (engs { loaded := true }) 0 (fun c => { c with running := true, count := 1000 })
     accAt specAeStart 0 70000000 map2 s = true) ∧
    acc specAeStop 0 map2 (engs { st := .running }) = true ∧ acc specAeSignal 0 map2 (engs { st := .running }) = true := by decide +kernel

/-! ### The manual's worked examples -/

/-- Several parameters set. -/
def sets (l : List (Nat × Nat × Nat)) (s : State) : State := l.foldl (fun s e => setPar s e.1 e.2.1 e.2.2) s

/-- R57: the standard check value of CRC-32C. -/
theorem test_crc32c : crc32c [0x31, 0x32, 0x33, 0x34, 0x35, 0x36, 0x37, 0x38, 0x39] = 0xE3069283 := by decide +kernel

/-- Chapter 0, a parameter of an absent unit: CH3 of an OL9640-S reads 0 with ABSENT, and its write is UNIT_ABSENT. -/
theorem test_absent_unit :
    (let s := { inMode .idle with variant := .s }
     getRecord s 0 (0x0403, 3) = leBytes 2 0x0403 ++ leBytes 2 3 ++ [1] ++ zeros 11 ∧
     (let p := pkSet [(0x0403, 3, 2)]
      (checks true (specSetParam p) (consume (give 3 p s) p) p).map (·.2) = some stUNIT_ABSENT)) := by decide +kernel

/-- Chapter 2, reading fabric headroom: the packet's first twelve bytes. -/
theorem test_get_param_header :
    hdr12 2 { pk 2 0 (zeros 24) with tag := 0x42 } = [2, 0, 0, 1, 0x42, 0, 0, 0, 24, 0, 0, 0] := by decide +kernel

/-- Chapter 3, a 58 mV sag: entry below -25, -40 and -55 mV. -/
theorem test_shed_thresholds : [1, 2, 3].map shedEnter = [-25, -40, -55] := by decide

/-- Chapter 5, probe pulses: after a change of period at 60,450,000 the next pulse is at 62,000,000. -/
theorem test_probe_pulses :
    pulseFrom (sets [(0x0521, 0, 60000000), (0x0522, 0, 2000000)] live) 0 60450000 = 62000000 ∧
    pulseFrom (sets [(0x0521, 0, 60000000), (0x0522, 0, 1000000)] live) 0 60000001 = 61000000 := by decide +kernel

/-- Chapter 6, ZM9 at SILENT: H, the ordinals of outputs 61,009 and 61,062, and the latency bound of 87.89 µs. -/
theorem test_silent_zoom :
    (let s := sets [(0x0610, 9, 7), (0x0602, 9, 0x0101), (0x0401, 1, 10000000000)] live
     zoomH s 9 = 431869 ∧ zoomOrd s 9 61009 = 1999142912 ∧ zoomOrd s 9 61062 = 2000879616 ∧
     qLe (zoomLatency s 9) (8789, 100) = false ∧ qLe (zoomLatency s 9) (87890, 1) = true) := by decide +kernel

/-- Chapter 6, a record-locked rate on ZM2: H, the stride, the rate and the latency bound of 10.39 µs. -/
theorem test_record_locked_zoom :
    (let s := sets [(0x0610, 2, 0), (0x0611, 2, 10), (0x0614, 2, 1), (0x0615, 2, 720575940379), (0x0401, 0, 10000000000)] live
     zoomH s 2 = 26989 ∧ zoomStride s 2 = (2251799813685248, 720575940379) ∧ zoomLatency s 2 = (103929, 10)) := by decide +kernel

/-- Chapter 7, two channels at 8× overlap, with the third stream on every unit: headroom 6.25%, demand 90 of 96 GS/s; on TU4
to TU7 alone it does not fit. -/
def overlap8 (more : List (Nat × Nat × Nat)) : State :=
  let s := sets ([(0x0402, 0, 1), (0x0402, 1, 1), (0x0402, 2, 1), (0x0402, 3, 1), (0x0401, 0, 10000000000), (0x0401, 1, 10000000000), (0x0401, 2, 10000000000),
    (0x0401, 3, 10000000000), (0x0701, 0, 1), (0x0702, 0, 0x0100), (0x0703, 0, 0x00FF), (0x0704, 0, 11), (0x0705, 0, 3), (0x0701, 8, 1),
    (0x0702, 8, 0x0102), (0x0703, 8, 0xFF00), (0x0704, 8, 11), (0x0705, 8, 3), (0x0701, 4, 0), (0x0701, 12, 0), (0x0702, 4, 0x0101), (0x0704, 4, 10), (0x0705, 4, 1)] ++ more)
    (inMode .analyse)
  { s with health := { factor := [16384, 16384, 16384, 16384], replanF := [16384, 16384, 16384, 16384] } }

theorem test_fabric_headroom :
    (resource (overlap8 []) true 2).1 = 1666 ∧
    (resource (overlap8 [(0x0701, 4, 1), (0x0703, 4, 0xFFFF)]) true 2) = (625, (96000000000, 1), (90000000000, 1)) ∧
    (resource (overlap8 [(0x0701, 4, 1), (0x0703, 4, 0x00F0)]) true 2).1 < 0 := by decide +kernel

/-- Chapter 10, density of one channel: 20.078125 G/s at d = 1. -/
theorem test_density_demand :
    (let s := sets [(0x0401, 0, 10000000000), (0x0702, 0, 0x0100), (0x0704, 0, 10), (0x0705, 0, 2), (0x0B02, 0, 1024), (0x0B03, 0, 1024), (0x0B0D, 0, 262144)] live
     duDemandAt s 0 0 0 = (20078125000, 1) ∧ duDecimation s 0 0 = some 0) := by decide +kernel

/-- Chapter 10, a 3840 × 2160 screen at 10 bpc: HBR2 on four lanes suffices, HBR3 on two does not, but does at 8 bpc. -/
theorem test_display_link :
    (let s := fun (lanes rate v : Nat) => sets [(0x0B21, 0, 522614), (0x0B25, 0, v)] (dispOn 0 { trained := true, lanes, rate })
     linkShort (s 4 2 0x2004) 0 = false ∧ linkShort (s 2 3 0x2004) 0 = true ∧ linkShort (s 2 3 0x1004) 0 = false) := by decide +kernel

/-- Chapter 13, a defeating pattern: every access falls in bank 32, in a new row; the new set is valid and spreads it. -/
theorem test_hbm_pattern :
    (∀ k ∈ [0, 1, 2, 5, 2047], hbmBank State.reset (0x1000000000 + k * 0x200400) = 32 ∧ hbmRow State.reset (0x1000000000 + k * 0x200400) = k) ∧
    (let set := (List.range 11).map (fun i => 2 ^ (10 + i) + 2 ^ (21 + (i + 1) % 11) + if i < 3 then 2 ^ (32 + i) else 0)
     nth set 0 0 = 0x0100400400 ∧ nth set 10 0 = 0x0000300000 ∧ facetsValid .f set = true) := by decide +kernel

/-- Chapter 15, a station sequence: `aux.pass_time`. -/
theorem test_aux_pass_time :
    (let s := sets [(0x0F02, 0, 4), (0x0F12, 0, 4096), (0x0F13, 0, 2000), (0x0F14, 0, 100), (0x0F15, 0, 20), (0x0F12, 1, 1024), (0x0F13, 1, 1000),
       (0x0F14, 1, 100), (0x0F15, 1, 20), (0x0F12, 2, 100), (0x0F13, 2, 500), (0x0F12, 3, 64), (0x0F13, 3, 500)] State.reset
     auxPassTime s false = 92840 ∧ auxPassTime s true = 133160) := by decide +kernel

/-! ### Ill-formed terms are refused -/

/-- A packet of n payload bytes, without a check. -/
def raw (n : Nat) : Packet := { src := .ring, flags := 0, slots := 0, tag := 0, inst := 0, len := 0, check := 0, payload := zeros n }

theorem test_wf_payload_too_long : (Instr.inventory (raw 4081)).wf = false ∧ (Instr.inventory (raw 4080)).wf = true := by decide +kernel

theorem test_wf_edid_too_long : (Instr.dispEdidRead (raw 8) (zeros 4097)).wf = false := by decide +kernel

theorem test_wf_fetch_fails_with_ok : (Instr.aeLoad (raw 48) (.halted 0)).wf = false ∧ (Instr.dmaCopy (raw 24) (.halted 0)).wf = false ∧
    (Instr.descriptorFetch 0 (.halted 0)).wf = false ∧ (Instr.descriptorRepoll 0 (.halted 0)).wf = false := by decide +kernel

theorem test_wf_boot_facts : (Instr.rstNRelease { slotA := none, slotB := none, mgmtAddr := 4, refinHz := 0, xoHz := 0 }).wf = false ∧
    (Instr.powerOnMonitorRelease { slotA := none, slotB := none, mgmtAddr := 4, refinHz := 0, xoHz := 0 }).wf = false := by decide

/-- A port with blocks of so many bytes. -/
def portN (n : Nat) : PortFacts :=
  { present := true, failing := false, lba := 4096, extras := false, capacity := 0, mdts := 0, superA := zeros n, superB := [] }

theorem test_wf_mount_facts : (Instr.storeMount (raw 0) (mount [])).wf = false ∧
    (Instr.storeMount (raw 0) { mount [] with ports := List.replicate 8 (portN 512) }).wf = false ∧
    (Instr.storeMount (raw 0) { mount [] with ports := List.replicate 8 (portN 4096) }).wf = true := by decide +kernel

theorem test_wf_boot_lists :
    let m := { mount [] with ports := List.replicate 8 (portN 0) }
    (Instr.bootComplete [] 0 m (List.replicate 64 16384) []).wf = false ∧
    (Instr.bootComplete (List.replicate 4 { result := 0, repaired := 0 }) 0 m [] []).wf = false ∧
    (Instr.bootComplete (List.replicate 4 { result := 0, repaired := 0 }) 0 (mount []) (List.replicate 64 16384) []).wf = false ∧
    (Instr.bootComplete (List.replicate 4 { result := 0, repaired := 0 }) 0 m (List.replicate 64 16384) []).wf = true := by decide

theorem test_wf_markers : (Instr.gapMarkerReceived (.zoom 0) { mark0 with last := 99 }).wf = false ∧
    (Instr.gapMarkerReceived (.zoom 0) { mark0 with last := 2 ^ 64 }).wf = false ∧ (Instr.gap (.channel 0) (2 ^ 64)).wf = false ∧
    (Instr.producerBufferFull .aux (2 ^ 64)).wf = false := by decide

theorem test_wf_step_facts : (Instr.opStepBoundary (2 ^ 32) .done).wf = false ∧ (Instr.opStepBoundary 1 (.failed 0)).wf = false ∧
    (Instr.opStepBoundary 1 (.sector [])).wf = false ∧ (Instr.opStepBoundary 1 (.sector (zeros 65537))).wf = false ∧
    (Instr.opStepBoundary 1 (.item [])).wf = false ∧ (Instr.opStepBoundary 1 (.range 4 0)).wf = false ∧
    (Instr.opStepBoundary 1 (.marker { mark0 with last := 0 })).wf = false ∧ (Instr.opStepBoundary 1 .done).wf = true := by decide +kernel

theorem test_wf_stamps : (Instr.ppsEdge 0 { stamp0 with r2 := 1000 } 0 0).wf = false ∧
    (Instr.evEdge 0 true { stamp0 with lastR2 := 1000 } 0).wf = false ∧ (Instr.cmpCrossing 0 0 { stamp0 with r2 := 1000 } false).wf = false ∧
    (Instr.evEdge 0 true stamp0 0).wf = true := by decide

theorem test_wf_requests : (Instr.hbmRequest 0 [{ req true 64 with data := [] }] 0 .clean).wf = false ∧
    (Instr.hbmRequest 0 [req false 64] 0 .clean).wf = false ∧ (Instr.rowIdleClose 6144).wf = false ∧ (Instr.bankRefresh 6144).wf = false ∧
    (Instr.registerWrite .window 0 []).wf = false ∧ (Instr.cmdDoorbell 0 (some (0, raw 4081))).wf = false ∧ (Instr.smbusBlockTransfer true [1] 2 true 0x58 2).wf = false ∧
    (Instr.smbusBlockTransfer false [1] 1 true 0x58 2).wf = false := by decide

theorem test_wf_readings : (Instr.gaugeReading (List.replicate 4 0)).wf = false ∧ (Instr.shedLevelRecovery [0]).wf = false ∧
    (Instr.auxSlotResult [] false []).wf = false ∧ (Instr.auxSlotResult [1] false [1]).wf = false ∧
    (Instr.pmbusPoll 0 { responded := true, fault := false, uvWarn := false, vout := 0, iout := 0, temp := 0, status := 65536 }).wf = false ∧
    (Instr.hpdPlug 0 { lanes := 3, rate := 0 }).wf = false ∧ (Instr.irqHpd 0 true { lanes := 5, rate := 0 }).wf = false := by decide

theorem test_wf_pair : (Instr.heartbeat (some { sync := false, role := 3, mode := 0, running := false, ppsQual := false })).wf = false ∧
    (Instr.heartbeat (some { sync := false, role := 0, mode := 8, running := false, ppsQual := false })).wf = false ∧
    (Instr.pairLinkUp 2 0 0 0).wf = false ∧ (Instr.pairLinkUp 4 3 0 0).wf = false ∧ (Instr.pairLinkUp 4 0 (2 ^ 32) 0).wf = false ∧
    (Instr.pairLinkUp 8 0 0 (2 ^ 64)).wf = false ∧ (Instr.cueItem 0 0 (2 ^ 64)).wf = false ∧ (Instr.journalHead [(16, 0)]).wf = false ∧
    (Instr.image (.params [(0, 2 ^ 64)])).wf = false ∧ (Instr.image (.table 65536 0 [])).wf = false ∧ (Instr.image (.table 0 65536 [])).wf = false := by
  decide

theorem test_wf_pair_packets : (Instr.config 65536 0 (raw 0) (.bytes [])).wf = false ∧ (Instr.config 0 65536 (raw 0) (.bytes [])).wf = false ∧
    (Instr.config 0 0 (raw 4081) (.bytes [])).wf = false ∧ (Instr.config 0 0 (raw 0) (.halted 0)).wf = false ∧
    (Instr.checkExtent 0 0 (chk false [])).wf = false ∧ (Instr.checkExtent 0 (2 ^ 64) (chk false [])).wf = false := by decide +kernel
end Sys2Proof.Tests
end

section
/-! PROOFS. What the work of the signal path's units can reach at all: it stays within `unitTold`, so that the parameters, the modes,
the long operations, the pending changes and the queue of units in error are left as they are. -/
namespace Sys2Proof.Machine

/-- s, but for what the units of the signal path hold (converters, clocks, gates, zooms, streams, transform units, cue sheets, capture
units and their DMA data, the store, density units, displays, engines, sensors, the play offsets of the pair) and what `told` names,
which are as in t. -/
def unitTold (s t : State) : State :=
  told { s with
    chans := t.chans, clk := t.clk, gates := t.gates, zooms := t.zooms, streams := t.streams, tus := t.tus, cue := t.cue, caps := t.caps
    store := t.store, dus := t.dus, disps := t.disps, engines := t.engines, aux := t.aux, cmps := t.cmps, pdac := t.pdac, tiu := t.tiu
    hbm := { s.hbm with hbmStacks := t.hbm.hbmStacks }, host := { s.host with chans := t.host.chans }
    pair := { s.pair with shadow := t.pair.shadow, play := t.pair.play, markDue := t.pair.markDue } } t

/-- What a state holds beside the units of the signal path: two states with one core differ by what `unitTold` names alone. -/
def core (s : State) : State := unitTold s State.reset

theorem unitTold_unitTold (s t u : State) : unitTold (unitTold s t) u = unitTold s u := rfl

theorem core_of_unitTold {s t : State} (h : t = unitTold s t) : core t = core s := by
  unfold core; rw [h, unitTold_unitTold]

/-- What stays within `told` keeps the core. -/
theorem Told.core {s t : State} (h : Told s t) : core t = core s := by
  unfold Told at h; rw [h]; rfl

theorem params_of_core {s t : State} (h : core t = core s) : t.params = s.params :=
  (congrArg State.params h : (core t).params = (core s).params)

theorem variant_of_core {s t : State} (h : core t = core s) : t.variant = s.variant :=
  (congrArg State.variant h : (core t).variant = (core s).variant)

theorem queue_of_core {s t : State} (h : core t = core s) : t.health.queue = s.health.queue :=
  (congrArg (fun x => x.health.queue) h : (core t).health.queue = (core s).health.queue)

theorem offline_of_core {s t : State} (h : core t = core s) : t.health.offline = s.health.offline :=
  (congrArg (fun x => x.health.offline) h : (core t).health.offline = (core s).health.offline)

theorem core_ite {p : Prop} [Decidable p] (a b : State) : core (if p then a else b) = if p then core a else core b :=
  apply_ite core p a b

/-- A fold of operations that keep the core keeps it. -/
@[simp] theorem core_foldl {α : Type} (f : State → α → State) (h : ∀ s a, core (f s a) = core s) (l : List α) (s : State) :
    core (l.foldl f s) = core s := by
  induction l generalizing s with
  | nil => rfl
  | cons a l ih => rw [List.foldl_cons, ih, h]

/-! ### Events and single units -/

@[simp] theorem core_raise (s : State) (code inst detail : Nat) (ord : Option (Nat × Nat)) (num : Nat) :
    core (raise s code inst detail ord num) = core s := (told_raise ..).core

@[simp] theorem core_raiseLatched (s : State) (code inst detail : Nat) (ord : Option (Nat × Nat)) :
    core (raiseLatched s code inst detail ord) = core s := (told_raiseLatched ..).core

@[simp] theorem core_emit (s : State) (o : Output) : core (emit s o) = core s := core_of_unitTold rfl

@[simp] theorem core_setStore (s : State) (f : Store → Store) : core (setStore s f) = core s := core_of_unitTold rfl

@[simp] theorem core_setCap (s : State) (u : Nat) (f : CapUnit → CapUnit) : core (setCap s u f) = core s :=
  core_of_unitTold rfl

@[simp] theorem core_setStream (s : State) (n : Nat) (f : Stream → Stream) : core (setStream s n f) = core s :=
  core_of_unitTold rfl

@[simp] theorem core_setZoom (s : State) (z : Nat) (f : Zoom → Zoom) : core (setZoom s z f) = core s :=
  core_of_unitTold rfl

@[simp] theorem core_setDu (s : State) (u : Nat) (f : DensityUnit → DensityUnit) : core (setDu s u f) = core s :=
  core_of_unitTold rfl

@[simp] theorem core_setDma (s : State) (c : Nat) (f : DmaChannel → DmaChannel) : core (setDma s c f) = core s :=
  core_of_unitTold rfl

@[simp] theorem core_setChan (s : State) (c : Nat) (f : Channel → Channel) : core (setChan s c f) = core s :=
  core_of_unitTold rfl

@[simp] theorem core_setClk (s : State) (f : ClockUnit → ClockUnit) : core (setClk s f) = core s := core_of_unitTold rfl

@[simp] theorem core_setGate (s : State) (g : Nat) (f : Gate → Gate) : core (setGate s g f) = core s :=
  core_of_unitTold rfl

@[simp] theorem core_setDisp (s : State) (o : Nat) (f : DisplayOut → DisplayOut) : core (setDisp s o f) = core s :=
  core_of_unitTold rfl

@[simp] theorem core_setTiuIn (s : State) (i : Nat) (f : TiuInput → TiuInput) : core (setTiuIn s i f) = core s :=
  core_of_unitTold rfl

@[simp] theorem core_setPdac (s : State) (d : Nat) (f : Pdac → Pdac) : core (setPdac s d f) = core s :=
  core_of_unitTold rfl

@[simp] theorem core_withCue (s : State) (c : CueUnit) : core { s with cue := c } = core s := core_of_unitTold rfl

@[simp] theorem core_withCaps (s : State) (c : List CapUnit) : core { s with caps := c } = core s :=
  core_of_unitTold rfl

@[simp] theorem core_withEngines (s : State) (c : Tab Engine) : core { s with engines := c } = core s :=
  core_of_unitTold rfl

/-! ### The store (R281 to R287, R293) -/

@[simp] theorem core_jAppend (s : State) (typ : Nat) (body : List Byte) : core (jAppend s typ body) = core s := by
  simp only [jAppend, core_setStore, core_ite, ite_self]

@[simp] theorem core_setRec (s : State) (n : Nat) (f : StoreRec → StoreRec) : core (setRec s n f) = core s :=
  core_of_unitTold rfl

@[simp] theorem core_updateRec (s : State) (n : Nat) : core (updateRec s n) = core s := by
  unfold updateRec
  split <;> simp only [core_jAppend, core_setRec, core_ite, ite_self]

@[simp] theorem core_setExtent (s : State) (serial : Nat) (f : Extent → Extent) :
    core (setExtent s serial f) = core s := core_of_unitTold rfl

@[simp] theorem core_addDamage (s : State) (n : Nat) (d : Damage) : core (addDamage s n d) = core s := by
  unfold addDamage
  split <;> simp only [core_raise, core_jAppend, core_setRec, core_ite, ite_self]

@[simp] theorem core_sweepExtents (s : State) : core (sweepExtents s) = core s := core_of_unitTold rfl

@[simp] theorem core_freeRecs (s : State) (lo hi : Nat) : core (freeRecs s lo hi) = core s := by
  simp only [freeRecs, core_setStore, core_jAppend, core_setRec, core_sweepExtents, core_foldl, implies_true]

@[simp] theorem core_recycle (f : Nat) (s : State) : core (recycle f s) = core s := by
  induction f generalizing s with
  | zero => rfl
  | succ f ih =>
    unfold recycle
    split
    · rfl
    · split
      · rfl
      · rw [ih, core_freeRecs]

@[simp] theorem core_advancePlay (s : State) (e : Extent) : core (advancePlay s e).2 = core s := core_of_unitTold rfl

@[simp] theorem core_placeExtent (s : State) (e : Extent) : core (placeExtent s e) = core s := by
  unfold placeExtent; dsimp only
  repeat' split
  all_goals simp only [core_raiseLatched, core_setStore, core_jAppend, core_setExtent, core_recycle]

@[simp] theorem core_closeExtent (s : State) (u : Nat) : core (closeExtent s u) = core s := by
  unfold closeExtent
  split
  · rfl
  · split
    · rw [core_setExtent]; rfl
    · simp only [core_ite, core_advancePlay, core_placeExtent, ite_self]

@[simp] theorem core_placeBlock (s : State) (u : Nat) (b : BlockRec) : core (placeBlock s u b).2 = core s := by
  unfold placeBlock; dsimp only
  repeat' split
  all_goals simp only [core_setStore, core_setExtent, core_addDamage, core_closeExtent, core_withCaps]

/-! ### Clocks and the reference (R149 to R157) -/

@[simp] theorem core_programPlls (s : State) : core (programPlls s) = core s := core_of_unitTold rfl

@[simp] theorem core_moveRef (s : State) (reason : Nat) : core (moveRef s reason) = core s := by
  simp only [moveRef, core_raise, core_setClk, core_programPlls, core_ite, ite_self]

@[simp] theorem core_loseLock (s : State) (p : Nat) (coast : Bool) : core (loseLock s p coast) = core s := by
  simp only [loseLock, core_raise, core_setClk, core_ite, ite_self]

@[simp] theorem core_loseRef (s : State) (reason : Nat) : core (loseRef s reason) = core s := by
  simp only [loseRef, core_setClk, core_moveRef, core_loseLock, core_foldl, core_ite, ite_self, implies_true]

@[simp] theorem core_resumeRef (s : State) (reason : Nat) : core (resumeRef s reason) = core s := by
  simp only [resumeRef, core_setClk, core_moveRef, core_ite, ite_self]

@[simp] theorem core_refWritten (s : State) : core (refWritten s) = core s := by
  simp only [refWritten, core_loseRef, core_resumeRef, core_ite, ite_self]

/-! ### Shares of the transform units (R197) -/

@[simp] theorem core_reshare (s : State) : core (reshare s) = core s := by
  unfold reshare
  split <;> rfl

/-! ### Zooms (R184 to R190) -/

@[simp] theorem core_zoomEmit (s : State) (z : Nat) (x : FlagIQ) : core (zoomEmit s z x) = core s := by
  unfold zoomEmit; dsimp only
  split <;> simp only [core_setZoom, core_ite, ite_self]

@[simp] theorem core_zoomSat (s : State) (z : Nat) (points : List (Nat × Nat)) : core (zoomSat s z points) = core s := by
  unfold zoomSat
  split <;> simp only [core_raiseLatched, core_setZoom]

@[simp] theorem core_zoomTake (s : State) (z j : Nat) (x : FlagIQ) : core (zoomTake s z j x) = core s := by
  simp only [zoomTake, core_setZoom, core_zoomEmit, core_zoomSat, core_foldl, implies_true]

@[simp] theorem core_zoomStart (s : State) (z at_ : Nat) : core (zoomStart s z at_) = core s := core_of_unitTold rfl

@[simp] theorem core_zoomMarker (s : State) (z : Nat) (m : GapMarker) : core (zoomMarker s z m) = core s := by
  unfold zoomMarker; dsimp only
  repeat' split
  all_goals simp only [core_setZoom]

@[simp] theorem core_zoomTune (s : State) (z : Nat) (c : TuneChange) : core (zoomTune s z c) = core s :=
  core_of_unitTold rfl

@[simp] theorem core_zoomDisable (s : State) (z c : Nat) : core (zoomDisable s z c) = core s := core_of_unitTold rfl

@[simp] theorem core_zoomAgain (s : State) (z n : Nat) : core (zoomAgain s z n) = core s := core_of_unitTold rfl

/-! ### Rings and records of capture units (R258 to R272) -/

@[simp] theorem core_settleRing (s : State) (u : Nat) : core (settleRing s u) = core s := core_of_unitTold rfl

@[simp] theorem core_pushItem (s : State) (u : Nat) (j : CapItem) : core (pushItem s u j) = core s :=
  core_of_unitTold rfl

@[simp] theorem core_placeItem (s : State) (u : Nat) (i : CapItem) : core (placeItem s u i) = core s :=
  core_of_unitTold rfl

@[simp] theorem core_setHead (s : State) (u : Nat) (f : OpenRec → OpenRec) : core (setHead s u f) = core s :=
  core_of_unitTold rfl

@[simp] theorem core_hostItem (s : State) (u : Nat) (bytes : List Byte) (ends : Bool) :
    core (hostItem s u bytes ends) = core s := core_of_unitTold rfl

@[simp] theorem core_placeData (f : Nat) (all : Bool) (s : State) (u : Nat) : core (placeData f all s u) = core s := by
  induction f generalizing s with
  | zero => rfl
  | succ f ih =>
    unfold placeData; dsimp only
    split
    · rfl
    · rw [ih, core_setHead, core_placeBlock]

@[simp] theorem core_putItem (s : State) (u typ count first : Nat) (body : List Byte) :
    core (putItem s u typ count first body) = core s := by
  unfold putItem; dsimp only
  split <;> simp only [core_emit, core_setHead, core_hostItem, core_placeData]

@[simp] theorem core_offsetMark (s : State) (u : Nat) : core (offsetMark s u) = core s := by
  unfold offsetMark
  split
  · rfl
  · rw [core_putItem]; rfl

@[simp] theorem core_openHead (s : State) (u : Nat) : core (openHead s u) = core s := by
  unfold openHead
  split <;> simp only [core_setStore, core_jAppend, core_setRec, core_placeBlock, core_setHead, core_hostItem, core_offsetMark,
      core_ite, ite_self]

@[simp] theorem core_storeItem (s : State) (u typ count first : Nat) (body : List Byte) :
    core (storeItem s u typ count first body) = core s := by
  simp only [storeItem, core_putItem, core_openHead]

@[simp] theorem core_storeRun (s : State) (u : Nat) (run : List CapItem) : core (storeRun s u run) = core s := by
  unfold storeRun
  split <;> simp only [core_setHead, core_storeItem, core_ite, ite_self]

@[simp] theorem core_formatHead (f : Nat) (all : Bool) (s : State) (u : Nat) : core (formatHead f all s u) = core s := by
  induction f generalizing s with
  | zero => rfl
  | succ f ih =>
    unfold formatHead
    split
    · rfl
    · simp only [core_ite, ih, core_storeRun, core_setHead, ite_self]

@[simp] theorem core_beginSpan (s : State) (u : Nat) (g₀ : Seg) : core (beginSpan s u g₀) = core s := by
  simp only [beginSpan, core_setHead, core_openHead, core_foldl, core_ite, ite_self, implies_true]

@[simp] theorem core_moveItems (s : State) (u : Nat) (g : Seg) (limit f : Nat) : core (moveItems s u g limit f) = core s := by
  induction f generalizing s with
  | zero => rfl
  | succ f ih =>
    unfold moveItems
    split
    · rfl
    · simp only [core_ite, ih, core_setCap, core_setHead, ite_self]

@[simp] theorem core_endHead (s : State) (u : Nat) : core (endHead s u) = core s := by
  unfold endHead; dsimp only
  split <;> simp only [core_jAppend, core_setRec, core_updateRec, core_closeExtent, core_placeBlock, core_setCap, core_hostItem,
      core_placeData, core_formatHead, core_ite, ite_self]

@[simp] theorem core_capPlayTo (f limit : Nat) (s : State) (u : Nat) : core (capPlayTo f limit s u) = core s := by
  induction f generalizing s with
  | zero => rfl
  | succ f ih =>
    unfold capPlayTo
    split
    · rfl
    · split
      · simp only [core_ite, ih, core_endHead, ite_self]
      · simp only [core_ite, ih, core_raise, core_setHead, core_formatHead, core_moveItems, core_beginSpan, ite_self]

@[simp] theorem core_endArming (s : State) (u : Nat) : core (endArming s u) = core s := core_of_unitTold rfl

@[simp] theorem core_capPlay (s : State) (u : Nat) : core (capPlay s u) = core s := by
  simp only [capPlay, core_settleRing, core_capPlayTo, core_endArming]

@[simp] theorem core_nextContinuous (s : State) (u : Nat) : core (nextContinuous s u) = core s := by
  unfold nextContinuous
  split <;> simp only [core_setCap, core_ite, ite_self]

@[simp] theorem core_capArmNow (s : State) (u c : Nat) : core (capArmNow s u c) = core s := by
  simp only [capArmNow, core_setCap, core_ite, ite_self]

@[simp] theorem core_rollover (s : State) (u : Nat) : core (rollover s u) = core s := by
  unfold rollover
  split
  · split
    · simp only [core_ite, core_capPlay, core_nextContinuous, ite_self]
    · rfl
  · rfl

@[simp] theorem core_capStartUnit (s : State) (u ord : Nat) : core (capStartUnit s u ord) = core s := by
  simp only [capStartUnit, core_setCap, core_pushItem, core_capArmNow, core_ite, ite_self]

@[simp] theorem core_endOld (s : State) (u sigma : Nat) : core (endOld s u sigma) = core s := by
  simp only [endOld, core_setCap, core_placeItem, core_ite, ite_self]

@[simp] theorem core_reducerTake (s : State) (u j : Nat) (x : FlagIQ) : core (reducerTake s u j x) = core s := by
  simp only [reducerTake, core_setCap, core_pushItem, core_endOld, core_ite, ite_self]

@[simp] theorem core_reducerFlush (s : State) (u : Nat) : core (reducerFlush s u) = core s := by
  simp only [reducerFlush, core_setCap, core_pushItem, core_placeItem, core_ite, ite_self]

@[simp] theorem core_groupEnd (s : State) (u : Nat) (short : Bool) : core (groupEnd s u short) = core s := by
  simp only [groupEnd, core_setCap, core_pushItem, core_foldl, implies_true]

@[simp] theorem core_stepNow (s : State) (u ord frame : Nat) : core (stepNow s u ord frame) = core s := by
  unfold stepNow
  split <;> simp only [core_raise, core_setCap, core_pushItem, core_endOld, core_groupEnd, core_ite, ite_self]

@[simp] theorem core_stepApply (s : State) (u ord : Nat) : core (stepApply s u ord) = core s := by
  unfold stepApply
  split <;> simp only [core_stepNow, core_ite, ite_self]

@[simp] theorem core_stepFrame (s : State) (u ord frame : Nat) : core (stepFrame s u ord frame) = core s := by
  unfold stepFrame
  split <;> simp only [core_groupEnd, core_stepNow, core_ite, ite_self]

@[simp] theorem core_capEndUnit (s : State) (u ord : Nat) : core (capEndUnit s u ord) = core s := by
  simp only [capEndUnit, core_closeExtent, core_setCap, core_capPlayTo, core_rollover, core_reducerFlush, core_groupEnd,
      core_foldl, core_ite, ite_self, implies_true]

@[simp] theorem core_capGap (s : State) (code : Nat) (m : GapMarker) (lo hi : Nat) : core (capGap s code m lo hi) = core s := by
  simp only [capGap, core_setCap, core_pushItem, core_foldl, implies_true]

@[simp] theorem core_capRange (s : State) (d fs ord lastStl : Nat) : core (capRange s d fs ord lastStl) = core s := by
  simp only [capRange, core_pushItem, core_foldl, implies_true]

/-! ### Density units (R302 to R306) -/

@[simp] theorem core_renderPass (s : State) (u : Nat) : core (renderPass s u) = core s := by
  unfold renderPass; dsimp only
  rw [core_setDu, core_foldl _ (fun s c => core_setDma s c _)]

@[simp] theorem core_countFrame (s : State) (u : Nat) : core (countFrame s u) = core s := by
  unfold countFrame
  split <;> simp only [core_raiseLatched, core_setDu, core_renderPass, core_ite, ite_self]

@[simp] theorem core_duFeed (s : State) (n : Nat) (f : FedFrame) : core (duFeed s n f) = core s := by
  simp only [duFeed, core_setDu, core_foldl, core_ite, ite_self, implies_true]

@[simp] theorem core_duStart (s : State) (u : Nat) : core (duStart s u) = core s := by
  unfold duStart
  split <;> simp only [core_raise, core_setDu, core_ite, ite_self]

@[simp] theorem core_duStop (s : State) (u : Nat) : core (duStop s u) = core s := by
  simp only [duStop, core_setDu, core_countFrame, core_foldl, core_ite, ite_self, implies_true]

/-! ### Input ports of the engines (R367, R368) -/

@[simp] theorem core_portFeed (s : State) (code ord : Nat) (bytes : List Byte) (flags : Nat) :
    core (portFeed s code ord bytes flags) = core s := core_of_unitTold rfl

@[simp] theorem core_portStop (s : State) (code : Nat) (on : Bool) : core (portStop s code on) = core s :=
  core_of_unitTold rfl

/-! ### Spectrum streams and their comparators (R200 to R228) -/

@[simp] theorem core_streamStart (s : State) (n ord : Nat) : core (streamStart s n ord) = core s := core_of_unitTold rfl

@[simp] theorem core_streamPut (s : State) (n code idx : Nat) (x : FlagIQ) : core (streamPut s n code idx x) = core s := by
  simp only [streamPut, core_setStream, core_ite, ite_self]

@[simp] theorem core_streamFeed (s : State) (code idx : Nat) (x : FlagIQ) : core (streamFeed s code idx x) = core s := by
  simp only [streamFeed, core_setStream, core_streamPut, core_foldl, core_ite, ite_self, implies_true]

@[simp] theorem core_takeMark (s : State) (n ord : Nat) : core (takeMark s n ord) = core s := by
  simp only [takeMark, core_raiseLatched, core_setStream, core_ite, ite_self]

@[simp] theorem core_streamPick (s : State) (n ord : Nat) : core (streamPick s n ord) = core s := core_of_unitTold rfl

@[simp] theorem core_maskItem (s : State) (m : Nat) (firstOrd evalOrd flags : Nat) (pw : List Nat) :
    core (maskItem s m firstOrd evalOrd flags pw) = core s := core_of_unitTold rfl

@[simp] theorem core_masksSettle (s : State) (n : Nat) : core (masksSettle s n) = core s := by
  unfold masksSettle
  exact core_foldl _ (fun _ _ => by rfl) _ _

@[simp] theorem core_maskClear (s : State) (n evalOrd : Nat) : core (maskClear s n evalOrd) = core s := by
  unfold maskClear
  exact core_foldl _ (fun _ _ => by rfl) _ _

@[simp] theorem core_deliverRecord (s : State) (n ord index flags kind : Nat) (bytes : List Byte) (selected : Bool) :
    core (deliverRecord s n ord index flags kind bytes selected) = core s := by
  simp only [deliverRecord, core_setCap, core_pushItem, core_groupEnd, core_stepFrame, core_portFeed, core_foldl, core_ite,
      ite_self, implies_true]

@[simp] theorem core_frameMarkers (s : State) (n : Nat) : core (frameMarkers s n) = core s := by
  simp only [frameMarkers, core_capGap, core_setStream, core_foldl, implies_true]

@[simp] theorem core_traceEmit (s : State) (n : Nat) (short : Bool) : core (traceEmit s n short) = core s := by
  simp only [traceEmit, core_setStream, core_maskItem, core_deliverRecord, core_foldl, core_ite, ite_self, implies_true]

@[simp] theorem core_segmentOne (s : State) (n : Nat) : core (segmentOne s n) = core s := by
  unfold segmentOne; dsimp only
  split <;> simp only [core_raise, core_setStream, core_traceEmit, core_ite, ite_self]

@[simp] theorem core_segmentDue (s : State) (n : Nat) : core (segmentDue s n) = core s := by
  simp only [segmentDue, core_segmentOne, core_foldl, implies_true]

@[simp] theorem core_hopForce (s : State) (n ord : Nat) : core (hopForce s n ord) = core s := by
  simp only [hopForce, core_setStream, core_ite, ite_self]

@[simp] theorem core_streamTrim (s : State) (n : Nat) : core (streamTrim s n) = core s := by
  simp only [streamTrim, core_setStream, core_ite, ite_self]

@[simp] theorem core_framePart (s : State) (n idx flags kind : Nat) (ref : Nat × Nat) (rec : Nat) (x : Spectrum × Nat) :
    core (framePart s n idx flags kind ref rec x) = core s := by
  simp only [framePart, core_deliverRecord]

@[simp] theorem core_frameEmit (s : State) (n : Nat) : core (frameEmit s n) = core s := by
  unfold frameEmit; dsimp only
  repeat' split
  all_goals simp only [core_duFeed, core_setStream, core_maskItem, core_frameMarkers, core_traceEmit, core_streamTrim,
      core_framePart, core_foldl, implies_true]

@[simp] theorem core_streamEnd (s : State) (n : Nat) (shed : Bool) : core (streamEnd s n shed) = core s := by
  simp only [streamEnd, core_duStop, core_portStop, core_setStream, core_masksSettle, core_maskClear, core_traceEmit, core_foldl,
      core_ite, ite_self, implies_true]

theorem core_frameTry {s t : State} {n : Nat} {stopping : Bool} (h : frameTry s n stopping = some t) : core t = core s := by
  unfold frameTry at h
  simp only [Option.ite_none_left_eq_some, Option.ite_none_right_eq_some, Option.some.injEq] at h
  obtain ⟨_, _, _, _, rfl⟩ := h
  rw [core_frameEmit, core_segmentDue]

@[simp] theorem core_drainStream (f n : Nat) (s : State) : core (drainStream f n s) = core s := by
  induction f generalizing s with
  | zero => rfl
  | succ f ih =>
    unfold drainStream
    split
    · rfl
    · next h => rw [ih, core_frameTry h]

@[simp] theorem core_startCaps (s : State) (code ord : Nat) : core (startCaps s code ord) = core s := by
  simp only [startCaps, core_capStartUnit, core_foldl, core_ite, ite_self, implies_true]

@[simp] theorem core_startStream (s : State) (n ord : Nat) : core (startStream s n ord) = core s := by
  simp only [startStream, core_setDu, core_duStart, core_portStop, core_streamStart, core_hopForce, core_startCaps, core_foldl,
      core_ite, ite_self, implies_true]

@[simp] theorem core_streamMarker (s : State) (n code : Nat) (m : GapMarker) : core (streamMarker s n code m) = core s := by
  simp only [streamMarker, core_setStream, core_ite, ite_self]

@[simp] theorem core_streamTurn (s : State) (n : Nat) : core (streamTurn s n) = core s := by
  unfold streamTurn; dsimp only
  split <;> simp only [core_setStream, core_streamPut, core_takeMark, core_startStream, core_streamMarker, core_foldl, core_ite,
      ite_self, implies_true]

@[simp] theorem core_streamHalt (s : State) (n : Nat) (shed : Bool) : core (streamHalt s n shed) = core s := by
  simp only [streamHalt, core_streamEnd, core_drainStream, core_streamTurn, core_foldl, core_ite, ite_self, implies_true]

/-! ### Zoom blocks (R187, R188, R229) -/

@[simp] theorem core_lvlTake (s : State) (code ord flags : Nat) (v : Int) : core (lvlTake s code ord flags v) = core s := by
  refine core_foldl _ (fun s d => ?_) _ _
  split
  · rfl
  · split <;> rfl

@[simp] theorem core_capBlock (s : State) (u : Nat) (item : CapItem) (view : List FlagIQ) (lin : Nat → Nat) :
    core (capBlock s u item view lin) = core s := by
  simp only [capBlock, core_pushItem, core_reducerTake, core_stepApply, core_foldl, core_ite, ite_self, implies_true]

@[simp] theorem core_zoomDeliver (s : State) (z k : Nat) : core (zoomDeliver s z k) = core s := by
  simp only [zoomDeliver, core_setZoom, core_zoomSat, core_capGap, core_portFeed, core_streamFeed, core_streamMarker, core_lvlTake,
      core_capBlock, core_foldl, core_ite, ite_self, implies_true]

@[simp] theorem core_zoomEnd (s : State) (z : Nat) (shed : Bool) (ord : Nat) : core (zoomEnd s z shed ord) = core s := by
  simp only [zoomEnd, core_setZoom, core_capEndUnit, core_portStop, core_streamHalt, core_foldl, core_ite, ite_self, implies_true]

@[simp] theorem core_zoomDrain (s : State) (z : Nat) : core (zoomDrain s z) = core s := by
  simp only [zoomDrain, core_zoomDeliver, core_foldl, core_ite, ite_self, implies_true]

/-! ### Starts and stops of zooms (R113, R190) -/

@[simp] theorem core_startStreams (s : State) (code ord : Nat) : core (startStreams s code ord) = core s := by
  simp only [startStreams, core_startStream, core_foldl, core_ite, ite_self, implies_true]

@[simp] theorem core_startZoom (s : State) (z ord : Nat) : core (startZoom s z ord) = core s := by
  simp only [startZoom, core_zoomStart, core_portStop, core_startCaps, core_startStreams]

@[simp] theorem core_zoomTurn (s : State) (z : Nat) : core (zoomTurn s z) = core s := by
  unfold zoomTurn; dsimp only
  split <;> simp only [core_setZoom, core_zoomTake, core_zoomMarker, core_startZoom, core_foldl, core_ite, ite_self, implies_true]

@[simp] theorem core_turnOver (s : State) (z : Nat) : core (turnOver s z) = core s := by
  simp only [turnOver, core_zoomEnd, core_zoomDrain, core_zoomTurn]

@[simp] theorem core_lastTurnOf (s : State) (z : Nat) : core (lastTurnOf s z) = core s := by
  simp only [lastTurnOf, core_turnOver, core_foldl, implies_true]

@[simp] theorem core_zoomHalt (s : State) (z : Nat) (shed : Bool) (ord : Nat) : core (zoomHalt s z shed ord) = core s := by
  simp only [zoomHalt, core_zoomEnd, core_zoomDrain, core_lastTurnOf]

/-! ### Sensors, gates and displays -/

@[simp] theorem core_auxLatch (s : State) : core (auxLatch s) = core s := core_of_unitTold rfl

@[simp] theorem core_auxHalt (s : State) : core (auxHalt s) = core s := core_of_unitTold rfl

@[simp] theorem core_auxStart (s : State) : core (auxStart s) = core s := by
  unfold auxStart
  split <;> rfl

@[simp] theorem core_auxFollow (s : State) : core (auxFollow s) = core s := by
  have stopping : core { s with aux := { s.aux with stopping := true } } = core s := rfl
  simp only [auxFollow, core_ite, core_auxHalt, core_auxStart, stopping, ite_self]

@[simp] theorem core_cmpFollow (s : State) (n : Nat) : core (cmpFollow s n) = core s := core_of_unitTold rfl

@[simp] theorem core_drivePdac (s : State) (d span code : Nat) : core (drivePdac s d span code) = core s := by
  simp only [drivePdac, core_emit, core_setPdac, core_ite, ite_self]

@[simp] theorem core_dispFollow (s : State) (o : Nat) : core (dispFollow s o) = core s := core_of_unitTold rfl

@[simp] theorem core_gateChanged (s : State) (g c : Nat) (enabled countWritten : Bool) :
    core (gateChanged s g c enabled countWritten) = core s := core_of_unitTold rfl

@[simp] theorem core_statSwitched (s : State) (u : Nat) : core (statSwitched s u) = core s := core_of_unitTold rfl

/-! ### What the entries of SET_PARAM do to their units -/

@[simp] theorem core_clearBits (s : State) (e : Entry) : core (clearBits s e) = core s := by
  unfold clearBits; dsimp only; split <;> rfl

@[simp] theorem core_rangeChanged (s : State) (i v n : Nat) : core (rangeChanged s i v n) = core s := by
  simp only [rangeChanged, core_setChan, core_capRange, core_ite, ite_self]

@[simp] theorem core_zoomSwitched (s : State) (z v n : Nat) (live : Bool) : core (zoomSwitched s z v n live) = core s := by
  simp only [zoomSwitched, core_setZoom, core_zoomDisable, core_zoomAgain, core_startZoom, core_ite, ite_self]

@[simp] theorem core_streamAgain (s : State) (k n : Nat) : core (streamAgain s k n) = core s := core_of_unitTold rfl

@[simp] theorem core_streamSwitched (s : State) (k v n : Nat) : core (streamSwitched s k v n) = core s := by
  simp only [streamSwitched, core_setStream, core_startStream, core_streamAgain, core_ite, ite_self]

@[simp] theorem core_marksChanged (s : State) (g n : Nat) : core (marksChanged s g n) = core s := by
  simp only [marksChanged, core_setStream, core_foldl, core_ite, ite_self, implies_true]

@[simp] theorem core_captureMoved (s : State) (u old n : Nat) : core (captureMoved s u old n) = core s := by
  simp only [captureMoved, core_capStartUnit, core_capEndUnit, core_ite, ite_self]

@[simp] theorem core_gateEffect (l : List Entry) (s : State) (g n : Nat) : core (gateEffect l s g n) = core s := by
  simp only [gateEffect, core_gateChanged, core_marksChanged, core_ite, ite_self]

@[simp] theorem core_pickEffect (l : List Entry) (s : State) (k n : Nat) : core (pickEffect l s k n) = core s := by
  simp only [pickEffect, core_streamPick, core_ite, ite_self]

end Sys2Proof.Machine
end

section
/-! PROOFS. GET_PARAM, SET_PARAM and INVENTORY: what written entries leave in the parameters (R4, R6, R67 to R71, R156). -/
namespace Sys2Proof.Machine

/-! ### Parameters -/

/-- What a parameter reads depends on the parameters written and on the variant alone. -/
theorem par_congr {s t : State} (hp : t.params = s.params) (hv : t.variant = s.variant) (id i : Nat) : par t id i = par s id i := by
  unfold par; rw [hp, hv]

theorem parKey_inj {id i id' i' : Nat} (hi : i < 65536) (hi' : i' < 65536) : parKey id i = parKey id' i' ↔ id = id' ∧ i = i' := by
  unfold parKey; omega

theorem par_setPar {s : State} {id i id' i' v : Nat} (hi : i < 65536) (hi' : i' < 65536) :
    par (setPar s id' i' v) id i = if id' = id ∧ i' = i then v else par s id i := by
  unfold par
  rw [setPar_params, setPar_variant]
  split
  · next h => obtain ⟨rfl, rfl⟩ := h; rw [tget?_tput_same]; rfl
  · next h => rw [tget?_tput_other _ _ (fun k => h ((parKey_inj hi' hi).1 k.symm))]

/-! ### Entries -/

theorem leNat_lt (l : List Byte) : leNat l < 256 ^ l.length := by
  induction l with
  | nil => decide
  | cons b l ih =>
    have hb : b.toNat < 256 := b.isLt
    simp only [leNat, List.length_cons, Nat.pow_succ]
    omega

theorem fld_lt (p : List Byte) (off n : Nat) : fld p off n < 256 ^ n :=
  Nat.lt_of_lt_of_le (leNat_lt _) (Nat.pow_le_pow_right (by decide) (List.length_take_le n _))

theorem setEntries_inst_lt {own : List Byte} {e : Entry} (h : e ∈ setEntries own) : e.2.1 < 65536 := by
  obtain ⟨k, -, rfl⟩ := List.mem_map.1 h
  exact fld_lt own _ 2

/-- The first entry of a list counts only where no later one names the same parameter. -/
theorem written_cons (e : Entry) (l : List Entry) (id i : Nat) :
    written (e :: l) id i = (written l id i).or (if e.1 = id ∧ e.2.1 = i then some e.2.2 else none) := by
  unfold written
  by_cases h : e.1 = id ∧ e.2.1 = i
  · rw [List.filter_cons_of_pos (by simp only [h, decide_true, Bool.and_self]), List.getLast?_cons, if_pos h]
    generalize List.getLast? _ = last
    cases last <;> rfl
  · rw [List.filter_cons_of_neg (by simpa only [Bool.and_eq_true, decide_eq_true_eq] using h), if_neg h, Option.or_none]

theorem plainPar_iff (id : Nat) : plainPar id = true ↔
    (paramRow id).map (fun r => r.acc) = some .rw ∧ id ∉ [0x0401, 0x0F30, 0x0F31, 0x0F32, 0x0F33, 0x0F36, 0x1201] := by
  simp [plainPar]

/-- A parameter that stands alone takes the value of its entry, and nothing else is written. -/
theorem writeEntry_plain (s : State) {e : Entry} (h : plainPar e.1 = true) : writeEntry s e = setPar s e.1 e.2.1 e.2.2 := by
  obtain ⟨id, i, v⟩ := e
  obtain ⟨hrw, hne⟩ := (plainPar_iff id).1 h
  simp only [List.mem_cons, List.not_mem_nil, or_false, not_or] at hne
  obtain ⟨h1, -, -, -, -, h6, h7⟩ := hne
  simp only [writeEntry, hrw, if_neg h1, if_neg h6, if_neg h7]

/-- Entries of parameters that stand alone give each parameter the last value written to it. -/
theorem par_writeEntries_plain (s : State) (l : List Entry) (h : ∀ e ∈ l, plainPar e.1 = true ∧ e.2.1 < 65536) (id : Nat) {i : Nat}
    (hi : i < 65536) : par (writeEntries s l) id i = (written l id i).getD (par s id i) := by
  induction l generalizing s with
  | nil => rfl
  | cons e l ih =>
    obtain ⟨plain, inst⟩ := h e List.mem_cons_self
    have rest := ih (writeEntry s e) (fun x hx => h x (List.mem_cons_of_mem _ hx))
    rw [writeEntries, List.foldl_cons, ← writeEntries, rest, writeEntry_plain s plain, par_setPar hi inst, written_cons]
    cases written l id i with
    | some v => rfl
    | none => split <;> rfl

/-! ### What written entries do beside their values -/

/-- An entry but that of a PDAC's wiring, which sets four more parameters (R455), moves its units alone. -/
theorem core_entryEffect (was s : State) {e : Entry} (at_ : EffectAt) (h : e.1 ≠ 0x0F36) : core (entryEffect was s e at_) = core s := by
  obtain ⟨id, i, v⟩ := e
  unfold entryEffect; dsimp only
  split
  case h_14 => exact absurd rfl h
  all_goals simp only [core_ite, core_rangeChanged, core_refWritten, core_zoomSwitched, core_zoomTune, core_streamSwitched, core_captureMoved,
    core_setDu, core_dispFollow, core_auxFollow, core_cmpFollow, core_statSwitched, core_clearBits, ite_self]

theorem core_entryEffects (was : State) (at_ : Entry → EffectAt) (l : List Entry) (h : ∀ e ∈ l, e.1 ≠ 0x0F36) (s : State) :
    core (l.foldl (fun s e => entryEffect was s e (at_ e)) s) = core s := by
  induction l generalizing s with
  | nil => rfl
  | cons e l ih =>
    rw [List.foldl_cons, ih (fun x hx => h x (List.mem_cons_of_mem _ hx)), core_entryEffect _ _ _ (h e List.mem_cons_self)]

@[simp] theorem core_pdacSchedule (s : State) (d : Nat) (ord span code : Option Nat) (tag : Nat) (told : Bool) :
    core (pdacSchedule s d ord span code tag told) = core s := core_of_unitTold rfl

/-- Without a cue ordinal no PDAC's entry is discarded, so none is written back. -/
theorem core_pdacEffects (l : List Entry) (was s : State) (tag : Nat) : core (pdacEffects l was s none tag) = core s := by
  simp only [pdacEffects, pdacEffect, Option.isSome_none, Bool.false_and, Bool.false_eq_true, if_false, core_ite, core_foldl,
    core_pdacSchedule, ite_self, implies_true]

/-- Of the parameters, entries applied at once change what they write, and nothing more. -/
theorem applyEntries_core (s : State) (l : List Entry) (ordOf : Nat → Nat) (tag : Nat) (h : ∀ e ∈ l, e.1 ≠ 0x0F36) :
    core (applyEntries s l ordOf none tag) = core (noteCued s (writeEntries s l) l ordOf none) := by
  simp only [applyEntries, core_ite, core_reshare, ite_self, core_pdacEffects, core_pickEffect, core_gateEffect, core_foldl, implies_true,
    core_entryEffects _ _ _ h]

theorem par_applyEntries (s : State) (l : List Entry) (ordOf : Nat → Nat) (tag : Nat) (h : ∀ e ∈ l, e.1 ≠ 0x0F36) (id i : Nat) :
    par (applyEntries s l ordOf none tag) id i = par (writeEntries s l) id i :=
  par_congr (params_of_core (applyEntries_core s l ordOf tag h)) (variant_of_core (applyEntries_core s l ordOf tag h)) id i

/-! ### The commands -/

/-- What SET_PARAM does to the state before it warns of low headroom. -/
def setParamDone (s : State) (p : Packet) (l : List Entry) (at_ : Option Nat) : State :=
  match at_ with
  | some n => schedule s p 0x0003 (changeChan s l) n (.params l)
  | none => applyEntries s l (appliedOrd s) none p.tag.toNat

/-- SET_PARAM answers each entry's record; the warnings of low headroom are told. -/
theorem runSetParam_told (s : State) (p : Packet) (inst : Nat) (own : List Byte) (at_ : Option Nat) :
    ∃ t, runSetParam s p inst own at_ = (stOK, setHead_ own 0xFFFF ++ ((setEntries own).map (setRecord s at_)).flatten, t) ∧
      Told (setParamDone s p (setEntries own) at_) t :=
  ⟨_, rfl, Told.foldl _ (fun s _ => told_raise s _ _ _ _ _) _ _⟩

theorem exec_inventory (p : Packet) (s : State) : exec (.inventory p) s = .next (runPacket specInventory runInventory p s) := rfl

theorem exec_getParam (p : Packet) (s : State) : exec (.getParam p) s = .next (runPacket specGetParam runGetParam p s) := rfl

theorem exec_setParam (p : Packet) (s : State) : exec (.setParam p) s = .next (runPacket (specSetParam p) runSetParam p s) := rfl

/-- The record of an entry does not depend on the ring, which reading the packet moves. -/
theorem setRecord_consume (s : State) (p : Packet) (at_ : Option Nat) : setRecord (consume s p) at_ = setRecord s at_ := rfl

theorem changeChan_consume (s : State) (p : Packet) (l : List Entry) : changeChan (consume s p) l = changeChan s l := rfl

theorem par_consume (s : State) (p : Packet) (id i : Nat) : par (consume s p) id i = par s id i := rfl

/-- Holdover time never runs back while holdover lasts, up to its largest value (R156). -/
theorem holdCount_holdMs (s : State) (m : Nat) :
    s.clk.holdMs ≤ (holdCount s m).clk.holdMs ∨ 2 ^ 32 ≤ s.clk.holdMs ∨ holdover s = false := by
  cases h : holdover s with
  | false => exact .inr (.inr rfl)
  | true =>
    have hold : holdoverOf { s.clk with holdMs := satU 32 (s.clk.holdMs + m) } = true := h
    simp only [holdCount, h, Bool.true_and]
    split
    · rw [setClk_clk, if_pos hold]
      by_cases big : 2 ^ 32 ≤ s.clk.holdMs
      · exact .inr (.inl big)
      · exact .inl (Nat.le_min.2 ⟨Nat.le_add_right _ _, by omega⟩)
    · exact .inl (Nat.le_refl _)

theorem accepted_setParam {p : Packet} {s : State} (h : accepted (specSetParam p) p s = true) {at_ : Option Nat}
    (ha : (if pktAt p then some (fld (payloadOf p) 0 8) else none) = at_) :
    ∃ t, exec (.setParam p) s = .next (completed 3 p stOK
        (setHead_ (ownOf p) 0xFFFF ++ ((setEntries (ownOf p)).map (setRecord s at_)).flatten) t) ∧
      Told (setParamDone (consume s p) p (setEntries (ownOf p)) at_) t := by
  obtain ⟨t, ht, told⟩ := runSetParam_told (consume s p) p p.inst.toNat (ownOf p) at_
  refine ⟨t, ?_, told⟩
  rw [exec_setParam, runPacket_accepted h]
  simp only [ha, ht, setRecord_consume]
  rfl

/-- Settles O16: the replies by the accepted packet's run; the parameters, since beside its values a written entry moves only its units
(`core`), so that each parameter reads the last entry that names it. -/
theorem parameterCommands : Obligations.ParameterCommands := by
  refine ⟨fun p s h => ?_, fun p s h => ⟨?_, ?_⟩, fun p s h hat => ?_, fun p s h hat => ?_⟩
  · rw [exec_inventory, runPacket_accepted h]; rfl
  · rw [exec_getParam, runPacket_accepted h]; rfl
  · exact holdCount_holdMs { consume s p with fresh := s.fresh + 1 } _
  · exact accepted_setParam h (if_pos hat)
  · obtain ⟨t, ht, told⟩ := accepted_setParam h (if_neg (by rw [hat]; decide))
    refine ⟨t, ht, fun plain id i hi _ => ?_⟩
    have notWiring : ∀ e ∈ setEntries (ownOf p), e.1 ≠ 0x0F36 := fun e he k => absurd (plain e he) (by rw [k]; decide)
    calc par t id i = par (setParamDone (consume s p) p (setEntries (ownOf p)) none) id i :=
          par_congr (params_of_core told.core) (variant_of_core told.core) id i
      _ = par (writeEntries (consume s p) (setEntries (ownOf p))) id i := par_applyEntries _ _ _ _ notWiring id i
      _ = (written (setEntries (ownOf p)) id i).getD (par s id i) :=
          par_writeEntries_plain _ _ (fun e he => ⟨plain e he, setEntries_inst_lt he⟩) id hi

end Sys2Proof.Machine
end

section
/-! PROOFS. Unit errors: the queue of units in error, a unit taken offline, the way to SAFE, and recovery (R105, R492 to R494). -/
namespace Sys2Proof.Machine

/-! ### The queue of units in error -/

theorem EngTold.queue {s t : State} (h : EngTold s t) : t.health.queue = s.health.queue := by
  unfold EngTold at h; rw [h]; rfl

theorem EngTold.offline {s t : State} (h : EngTold s t) : t.health.offline = s.health.offline := by
  unfold EngTold at h; rw [h]; rfl

theorem Told.queue {s t : State} (h : Told s t) : t.health.queue = s.health.queue := h.engTold.queue

theorem Told.offline {s t : State} (h : Told s t) : t.health.offline = s.health.offline := h.engTold.offline

theorem Told.md {s t : State} (h : Told s t) : t.md = s.md := by
  unfold Told at h; rw [h]; rfl

theorem Told.eng {s t : State} (h : Told s t) (e : Nat) : eng t e = eng s e := by
  unfold Told at h; rw [h]; rfl

theorem Told.clusters {s t : State} (h : Told s t) : t.clusters = s.clusters := by
  unfold Told at h; rw [h]; rfl

/-! ### Engines with an error in their memory -/

theorem engTold_discardStores (s : State) (e : Nat) : EngTold s (discardStores s e) := by
  unfold discardStores; dsimp only
  refine EngTold.ite (engTold_setEng s e _) ?_
  exact (engTold_setEng s e _).trans ((told_logResolved ..).trans (told_raise ..)).engTold

theorem clusters_discardStores (s : State) (e : Nat) : (discardStores s e).clusters = s.clusters := by
  unfold discardStores; dsimp only
  split
  · rfl
  · exact ((told_logResolved ..).trans (told_raise ..)).clusters

theorem engTold_engineMemErr (s : State) (e : Nat) : EngTold s (engineMemErr s e) :=
  (engTold_discardStores s e).trans (engTold_setEng _ e _)

theorem cluster_engineMemErr (s : State) (e c : Nat) : cluster (engineMemErr s e) c = cluster s c := by
  unfold cluster engineMemErr; rw [← clusters_discardStores s e]; rfl

/-- A change of each engine of a list that moves no engine's place leaves every engine's place. -/
theorem physical_foldl_setEng (g : State → Nat → State) (hg : ∀ s e i, (eng (g s e) i).physical = (eng s i).physical) (l : List Nat)
    (s : State) (i : Nat) : (eng (l.foldl g s) i).physical = (eng s i).physical := by
  induction l generalizing s with
  | nil => rfl
  | cons e l ih => rw [List.foldl_cons, ih, hg]

theorem physical_advanceEpoch (s : State) (c i : Nat) : (eng (advanceEpoch s c) i).physical = (eng s i).physical := by
  unfold advanceEpoch; dsimp only
  refine (physical_foldl_setEng _ (fun s e i => ?_) _ _ i).trans rfl
  split
  · rfl
  · by_cases h : i = e
    · subst h; rw [eng_setEng]
    · rw [eng_setEng_other _ _ h]

/-- The spare of its cluster, where it is free, takes an engine's place (R386). -/
theorem physical_substitute (s : State) (e : Nat) (h : (cluster s (clusterOf e)).spare = 0) :
    (eng (substitute s e) e).physical = some (clusterOf e) := by
  unfold substitute; dsimp only
  rw [if_neg (by omega)]
  rw [(told_raise ..).eng, physical_advanceEpoch, eng_setEng]

/-! ### A unit taken offline -/

theorem takeOffline_spared {s : State} {i : Nat} (h : (cluster s (clusterOf i)).spare = 0) :
    EngTold s (takeOffline s 0x06 i) ∧ (eng (takeOffline s 0x06 i) i).physical = some (clusterOf i) := by
  have free : (cluster (engineMemErr s i) (clusterOf i)).spare = 0 := by rw [cluster_engineMemErr, h]
  have eq : takeOffline s 0x06 i = substitute (engineMemErr s i) i := by simp only [takeOffline, free, if_true]
  rw [eq]
  exact ⟨(engTold_engineMemErr s i).trans (engTold_substitute _ i), physical_substitute _ i free⟩

/-- A unit for which no spare stands ready is put out of service, and the queue of units in error stays. -/
theorem takeOffline_listed {s : State} {k i : Nat} (h : k ≠ 6 ∨ (cluster s (clusterOf i)).spare ≠ 0) :
    (takeOffline s k i).health.queue = s.health.queue ∧ (takeOffline s k i).health.offline = s.health.offline ++ [(k, i)] := by
  by_cases hk : k = 6
  · subst hk
    have taken : (cluster (engineMemErr s i) (clusterOf i)).spare ≠ 0 := by rw [cluster_engineMemErr]; exact h.resolve_left (by decide)
    simp only [takeOffline, if_neg taken]
    exact ⟨(engTold_engineMemErr s i).queue, congrArg (· ++ [(6, i)]) (engTold_engineMemErr s i).offline⟩
  · have put : core (takeOffline s k i) = core (setHealth s (fun h => { h with offline := h.offline ++ [(k, i)] })) := by
      unfold takeOffline
      split
      · exact absurd rfl hk
      · dsimp only
        split <;> simp only [core_ite, core_zoomHalt, core_duStop, core_capEndUnit, ite_self]
    exact ⟨(queue_of_core put).trans rfl, (offline_of_core put).trans rfl⟩

/-! ### Log entries of the queue -/

theorem setEntry_cases {s : State} {seq st : Nat} {e : ErrEntry} (h : e ∈ (setEntry s seq st).health.log) :
    (e.seq = seq ∧ e.st = st) ∨ (e.seq ≠ seq ∧ e ∈ s.health.log) := by
  obtain ⟨x, hx, rfl⟩ := List.mem_map.1 h
  split
  · next k => exact .inl ⟨k, rfl⟩
  · next k => exact .inr ⟨k, hx⟩

@[simp] theorem core_setEntry (s : State) (seq st : Nat) : core (setEntry s seq st) = core s := core_of_unitTold rfl

@[simp] theorem core_recoverNext (s : State) : core (recoverNext s) = core s := by
  unfold recoverNext
  split
  · rw [core_setEntry]
  · rfl

theorem recoverNext_engines (s : State) : (recoverNext s).engines = s.engines := by
  unfold recoverNext; split <;> rfl

theorem recoverNext_log {s : State} {seq : Nat} (h : ∀ x ∈ s.health.queue, x.seq ≠ seq) {e : ErrEntry}
    (he : e ∈ (recoverNext s).health.log) (hseq : e.seq = seq) : e ∈ s.health.log := by
  unfold recoverNext at he
  split at he
  · next u rest hq =>
    have other : u.seq ≠ seq := h u (by rw [hq]; exact List.mem_cons_self)
    rcases setEntry_cases he with ⟨k, -⟩ | ⟨-, k⟩
    · exact absurd (k.symm.trans hseq) other
    · exact k
  · exact he

theorem reshare_engines (s : State) : (reshare s).engines = s.engines := by
  unfold reshare; split <;> rfl

/-- What follows a unit's going offline (its event, the next unit's turn, new shares) moves no engine. -/
theorem eng_reshare_recoverNext_raise (s : State) (code inst detail e : Nat) :
    eng (reshare (recoverNext (raise s code inst detail))) e = eng s e := by
  rw [← (told_raise s code inst detail none 0).eng e]
  unfold eng
  rw [reshare_engines, recoverNext_engines]

/-! ### A unit's errors (R494) -/

/-- A first error logs the unit, and puts it at the end of the queue. -/
theorem unitError_first {s : State} {code k i detail : Nat}
    (h : s.health.queue.find? (fun u => decide (u.kind = k) && decide (u.inst = i)) = none) :
    ∃ seq, (unitError s code k i detail).health.queue = s.health.queue ++ [{ kind := k, inst := i, code := code, seq := seq }] ∧
      (unitError s code k i detail).health.offline = s.health.offline := by
  have logged := told_logEntry s code k i detail false (if s.health.queue.isEmpty then 1 else 0) false
  simp only [unitError, h]
  generalize logEntry s code k i detail false (if s.health.queue.isEmpty then 1 else 0) false = t at logged
  refine ⟨if t.health.seq = s.health.seq then 0 else t.health.seq, ?_⟩
  rw [← logged.queue, ← logged.offline]
  split
  · exact ⟨(engTold_engineMemErr _ i).queue, (engTold_engineMemErr _ i).offline⟩
  · exact ⟨rfl, rfl⟩

/-- A second error takes the unit out of the queue, once it is logged, and out of service. -/
theorem unitError_second {s : State} {code k i detail : Nat} {u : ErrUnit}
    (h : s.health.queue.find? (fun u => decide (u.kind = k) && decide (u.inst = i)) = some u) :
    ∃ t x, unitError s code k i detail = reshare (recoverNext (raise (takeOffline t k i) 0x0215 i x)) ∧
      t.health.queue = s.health.queue.filter (fun x => !decide (x = u)) ∧
      t.health.offline = s.health.offline ∧ t.clusters = s.clusters := by
  have logged := told_logEntry s code k i detail false 3 true
  simp only [unitError, h]
  generalize logEntry s code k i detail false 3 true = t at logged
  refine ⟨_, _, rfl, ?_, logged.offline, logged.clusters⟩
  rw [← logged.queue]; rfl

/-- What a second error leaves: the unit offline, or its cluster's spare in an engine's place. -/
theorem unitError_again {s : State} {code k i detail : Nat} {u : ErrUnit}
    (h : s.health.queue.find? (fun u => decide (u.kind = k) && decide (u.inst = i)) = some u) :
    (unitError s code k i detail).health.queue = s.health.queue.filter (fun x => !decide (x = u)) ∧
    (k ≠ 6 ∨ (cluster s (clusterOf i)).spare ≠ 0 → (k, i) ∈ (unitError s code k i detail).health.offline) ∧
    (k = 6 → (cluster s (clusterOf i)).spare = 0 → (unitError s code k i detail).health.offline = s.health.offline ∧
      (eng (unitError s code k i detail) i).physical = some (clusterOf i)) := by
  obtain ⟨t, x, eq, hqueue, hoffline, hclusters⟩ := unitError_second h (code := code) (detail := detail)
  have after : core (reshare (recoverNext (raise (takeOffline t k i) 0x0215 i x))) = core (takeOffline t k i) := by
    simp only [core_reshare, core_recoverNext, core_raise]
  have spare : cluster t (clusterOf i) = cluster s (clusterOf i) := by unfold cluster; rw [hclusters]
  rw [eq, queue_of_core after, offline_of_core after, eng_reshare_recoverNext_raise, ← hqueue, ← hoffline, ← spare]
  by_cases spared : k = 6 ∧ (cluster t (clusterOf i)).spare = 0
  · obtain ⟨rfl, free⟩ := spared
    obtain ⟨kept, place⟩ := takeOffline_spared free
    exact ⟨kept.queue, fun k => absurd free (k.resolve_left (by decide)), fun _ _ => ⟨kept.offline, place⟩⟩
  · have listed : k ≠ 6 ∨ (cluster t (clusterOf i)).spare ≠ 0 := by
      by_cases hk : k = 6
      · exact .inr (fun free => spared ⟨hk, free⟩)
      · exact .inl hk
    obtain ⟨kept, out⟩ := takeOffline_listed listed
    refine ⟨kept, fun _ => ?_, fun hk free => absurd ⟨hk, free⟩ spared⟩
    rw [out]
    exact List.mem_append_right _ (List.mem_singleton_self _)

theorem notBoot_of_managerUp {s : State} (h : managerUp s = true) : s.md.mode ≠ .boot := by
  intro boot; simp [managerUp, boot] at h

/-- UNIT_ERROR_DETECTED, by what the code names; a unit that is absent has no errors (R9). -/
theorem exec_unitErrorDetected (code : BitVec 16) (kind : BitVec 8) (inst : BitVec 16) (detail : W64) {s : State} (up : managerUp s = true) :
    exec (.unitErrorDetected code kind inst detail) s = .next (
      if errUnitFitted s kind.toNat inst.toNat = false then s
      else if (errKinds code.toNat).contains kind.toNat = true then
        (if isOffline s kind.toNat inst.toNat = false then unitError s code.toNat kind.toNat inst.toNat detail.toNat else s)
      else if errPlain code.toNat = true then logResolved s code.toNat kind.toNat inst.toNat detail.toNat
      else if code.toNat = 0x11F0 ∨ code.toNat = 0x11F1 then
        enterSafe (logEntry s code.toNat kind.toNat inst.toNat detail.toNat true 4 false) 5
      else s) := by
  change Host.Outcome.next _ = _
  simp only [up, Bool.not_true, Bool.false_or, Bool.not_eq_true', Bool.or_eq_true, decide_eq_true_eq]

theorem exec_errorRecovery (s : State) : exec .errorRecovery s = execErrorRecovery s := rfl

/-- A code whose recovery reads "none" names no unit to recover. -/
theorem errKinds_of_errPlain {c : Nat} (h : errPlain c = true) : errKinds c = [] := by
  simp only [errPlain, List.contains_iff_mem, List.mem_cons, List.not_mem_nil, or_false] at h
  rcases h with rfl | rfl | rfl | rfl | rfl | rfl | rfl <;> rfl

/-- A first cause of SAFE begins the transition there (R105). -/
theorem enterSafe_begins {s : State} {cause : Nat} (hboot : s.md.mode ≠ .boot) (hsafe : s.md.mode ≠ .safe) (hrest : s.md.transit = none) :
    (enterSafe s cause).md.safeCause = cause ∧
    (enterSafe s cause).md.transit = some { target := .safe, reason := if cause = 1 then 0 else 2 } := by
  unfold enterSafe
  rw [if_neg hboot, if_neg (by simp [hsafe, hrest])]
  dsimp only
  rw [((told_setSticky ..).trans (told_raiseLatched ..)).md]
  exact ⟨rfl, rfl⟩

/-! ### Recovery (R493) -/

@[simp] theorem core_restartUnit (s : State) (kind inst : Nat) : core (restartUnit s kind inst) = core s := by
  unfold restartUnit
  split <;> simp only [core_setChan, core_startZoom, core_zoomHalt, core_startStream, core_streamHalt, core_setDu, core_capStartUnit,
    core_capEndUnit, core_foldl, core_ite, ite_self, implies_true]

/-- The first unit of the queue leaves it with its entry RESOLVED, and nothing that restarts it joins the queue. -/
theorem execErrorRecovery_cons {s : State} {u : ErrUnit} {rest : List ErrUnit} (h : s.health.queue = u :: rest) :
    ∃ t, execErrorRecovery s = .next (recoverNext (setEntry t u.seq 2)) ∧ t.health.queue = rest := by
  simp only [execErrorRecovery, h]
  refine ⟨_, rfl, (queue_of_core ?_ : _ = (setHealth s (fun h => { h with queue := rest })).health.queue)⟩
  simp only [core_ite, core_restartUnit, core_setDu, ite_self]

/-- Settles O55: what an error of each code does, by the cases of UNIT_ERROR_DETECTED, and the recovery of the queue's first unit. -/
theorem errorsAreLogged : Obligations.ErrorsAreLogged := by
  refine ⟨fun code kind inst detail s up => ?_, fun s h => ?_, fun s u rest h distinct => ?_⟩
  · dsimp only
    rw [exec_unitErrorDetected _ _ _ _ up]
    refine ⟨fun absent => by rw [if_pos absent], fun fit => ?_⟩
    rw [if_neg (by rw [fit]; decide)]
    refine ⟨fun named inService => ?_, fun plain => ?_, fun fatal hsafe hrest => ?_⟩
    · rw [if_pos named, if_pos inService]
      refine ⟨fun new => ?_, fun u found => ?_⟩
      · obtain ⟨seq, hqueue, hoffline⟩ := unitError_first (code := code.toNat) (detail := detail.toNat)
          (List.find?_eq_none.2 (fun u hu => by simpa using new u hu))
        exact ⟨_, seq, rfl, hqueue, hoffline⟩
      · exact ⟨_, rfl, unitError_again found⟩
    · rw [errKinds_of_errPlain plain, if_neg (by simp), if_pos plain]
    · have logged := told_logEntry s code.toNat kind.toNat inst.toNat detail.toNat true 4 false
      have names : (errKinds code.toNat).contains kind.toNat ≠ true ∧ errPlain code.toNat ≠ true ∧
          (code.toNat = 0x11F0 ∨ code.toNat = 0x11F1) := by
        rcases fatal with rfl | rfl
        · exact ⟨Bool.false_ne_true, Bool.false_ne_true, .inl rfl⟩
        · exact ⟨Bool.false_ne_true, Bool.false_ne_true, .inr rfl⟩
      obtain ⟨noUnit, notPlain, isFatal⟩ := names
      rw [if_neg noUnit, if_neg notPlain, if_pos isFatal]
      exact ⟨_, rfl, enterSafe_begins (by rw [logged.md]; exact notBoot_of_managerUp up) (by rwa [logged.md]) (by rwa [logged.md])⟩
  · simp only [exec_errorRecovery, execErrorRecovery, h]
  · obtain ⟨t, ht, hq⟩ := execErrorRecovery_cons h
    refine ⟨_, ht, (queue_of_core (core_recoverNext _)).trans hq, fun e he hseq => ?_⟩
    rcases setEntry_cases (recoverNext_log (by simpa only [setEntry, setHealth, hq] using distinct) he hseq) with ⟨-, k⟩ | ⟨k, -⟩
    · exact k
    · exact absurd hseq k

end Sys2Proof.Machine
end

section
/-! PROOFS. The converters' background work: loss of signal, stale calibrations and background updates (R125, R127, R142, R272). -/
namespace Sys2Proof.Machine

/-! ### Posting an event opens no window and sets no latch -/

@[simp] theorem emitHost_ev (s : State) (o : Output) : (emitHost s o).ev = s.ev := by
  unfold emitHost; split <;> rfl

@[simp] theorem fireVector_ev (s : State) (v : Nat) : (fireVector s v).ev = s.ev := by
  simp only [fireVector, apply_ite State.ev, emit_ev, ite_self]

@[simp] theorem fireHeld_ev (s : State) (v : Nat) : (fireHeld s v).ev = s.ev := by
  simp only [fireHeld, apply_ite State.ev, fireVector_ev, ite_self]

@[simp] theorem setSticky_ev (s : State) (n : Nat) : (setSticky s n).ev = s.ev := by
  simp only [setSticky, apply_ite State.ev, fireVector_ev, ite_self]

@[simp] theorem setRingStatus_ev (s : State) (was : Bool) (f : Rings → Rings) : (setRingStatus s was f).ev = s.ev := by
  simp only [setRingStatus, apply_ite State.ev, fireVector_ev, ite_self]

@[simp] theorem writeMirror_ev (s : State) : (writeMirror s).ev = s.ev := by
  simp only [writeMirror, apply_ite State.ev, emitHost_ev, ite_self]

@[simp] theorem writeRingEvent_ev (s : State) (e : Event) : (writeRingEvent s e).ev = s.ev := by
  simp only [writeRingEvent, fireHeld_ev, writeMirror_ev, emitHost_ev]

@[simp] theorem reportRingLoss_ev (s : State) : (reportRingLoss s).ev = s.ev := by
  simp only [reportRingLoss, apply_ite State.ev, writeRingEvent_ev, ite_self]

@[simp] theorem postRing_ev (s : State) (e : Event) : (postRing s e).ev = s.ev := by
  simp only [postRing, apply_ite State.ev, writeRingEvent_ev, setSticky_ev, setRingStatus_ev, reportRingLoss_ev, ite_self]

@[simp] theorem postMbx_ev (s : State) (m : Mbx) (e : Event) : (postMbx s m e).ev = s.ev := by
  simp only [postMbx, apply_ite State.ev, setMbx_ev, ite_self]

@[simp] theorem post_ev (s : State) (e : Event) : (post s e).ev = s.ev := by
  simp only [post, apply_ite State.ev, postMbx_ev, postRing_ev, ite_self]

@[simp] theorem noteSticky_ev (s : State) (code : Nat) : (noteSticky s code).ev = s.ev := by
  unfold noteSticky; split
  · exact setSticky_ev s _
  · rfl

@[simp] theorem mkEvent_ev (s : State) (code inst detail : Nat) (ord : Option (Nat × Nat)) (num : Nat) :
    (mkEvent s code inst detail ord num).2.ev = s.ev := by
  unfold mkEvent; dsimp only; split
  · split <;> exact noteSticky_ev s code
  · exact noteSticky_ev s code

@[simp] theorem raise_ev (s : State) (code inst detail : Nat) (ord : Option (Nat × Nat)) (num : Nat) :
    (raise s code inst detail ord num).ev = s.ev :=
  (post_ev _ _).trans (mkEvent_ev s code inst detail ord num)

/-- A latched event leaves its latch set, whether it was posted now or before (R74). -/
theorem latch_mem_raiseLatched (s : State) (code inst detail : Nat) (ord : Option (Nat × Nat)) :
    (code, inst) ∈ (raiseLatched s code inst detail ord).ev.latches := by
  unfold raiseLatched; split
  · next latched => exact List.contains_iff_mem.1 latched
  · rw [raise_ev]; exact List.mem_cons_self

/-! ### Loss of signal and stale calibrations (R127, R142) -/

theorem exec_convLos (c : Fin 4) (s : State) : exec (.convLos c) s = execConvLos c s := rfl

theorem exec_convCalStale (c fs : Fin 4) (s : State) : exec (.convCalStale c fs) s = execConvCalStale c fs s := rfl

theorem domainOf_setChan (s : State) (i : Nat) (f : Channel → Channel) (c : Nat) : domainOf (setChan s i f) c = domainOf s c := rfl

/-- CONV_CAL_STALE on a setting that is due takes it from the list and posts the latched event. -/
theorem execConvCalStale_due {c fs : Fin 4} {s : State} {f n : Nat}
    (h : (chan s c).staleDue.find? (fun d => d.1 = fs.val) = some (f, n)) :
    execConvCalStale c fs s = .next (raiseLatched
      (setChan s c (fun ch => { ch with staleDue := ch.staleDue.filter (fun d => d.1 ≠ fs.val) }))
      0x0403 (domainOf s c) fs (some (domainOf s c, n))) := by
  have setting : f = fs.val := by simpa using List.find?_some h
  simp only [execConvCalStale, h, domainOf_setChan, setting]

/-! ### Background updates (R125, R272) -/

/-- What capture units store of a background update changes nothing but the units themselves. -/
theorem capCal_caps (s : State) (d ord : Nat) (bytes : List Byte) :
    capCal s d ord bytes = { s with caps := (capCal s d ord bytes).caps } := by
  have pushed : ∀ (l : List Nat) (j : CapItem) (s : State),
      l.foldl (fun s u => pushItem s u j) s = { s with caps := (l.foldl (fun s u => pushItem s u j) s).caps } := by
    intro l j
    induction l with
    | nil => exact fun _ => rfl
    | cons u l ih => intro s; rw [List.foldl_cons, ih]; rfl
  exact pushed _ _ s

/-- Gathering for the cross-check changes nothing but the draft of the extent. -/
theorem gather_draft (s : State) (d n : Nat) (f : ExtentDraft → ExtentDraft) :
    gather s d n f = { s with pair := { s.pair with draft := (gather s d n f).pair.draft } } := by
  unfold gather; split <;> rfl

/-- A pair that is not synchronised gathers nothing (R514). -/
theorem gather_unsynced {s : State} (h : s.pair.sync = false) (d n : Nat) (f : ExtentDraft → ExtentDraft) : gather s d n f = s := by
  simp [gather, gathers, h]

/-- An update that is due is applied to its converter; beside it, capture units store the set and the draft of the extent notes it. -/
theorem calDue_due {s : State} {c n : Nat} (h : ∃ u ∈ (chan s c).updates, u.1 ≤ n) :
    ∃ caps draft, calDue s c n = { setChan s c (fun ch => bgApply ch n) with caps := caps, pair := { s.pair with draft := draft } } ∧
      (s.pair.sync = false → draft = s.pair.draft) := by
  have due : (chan s c).updates.any (fun u => u.1 ≤ n) = true := by simpa using h
  unfold calDue
  rw [if_pos due]
  dsimp only
  rw [capCal_caps]
  split
  · exact ⟨_, _, rfl, fun _ => rfl⟩
  · refine ⟨_, _, by rw [gather_draft]; rfl, fun unsynced => ?_⟩
    rw [gather_unsynced (s := setChan s c _) unsynced]; rfl

theorem calDue_notDue {s : State} {c n : Nat} (h : ∀ u ∈ (chan s c).updates, n < u.1) : calDue s c n = s := by
  have notDue : ¬ (chan s c).updates.any (fun u => u.1 ≤ n) = true := by simpa using h
  unfold calDue
  rw [if_neg notDue]

theorem exec_bgcalUpdate (c : Fin 4) (s : State) : exec (.bgcalUpdate c) s = .next (calDue s c (sampleOrd s c)) := rfl

/-- Settles O42: the loss of signal and the stale setting by what is due, the background update by whether its ordinal has come. -/
theorem converterCalibration : Obligations.ConverterCalibration := by
  refine ⟨fun c s => ⟨fun on n due => ?_, fun notDue => ?_⟩, fun c fs s f n due => ?_, fun c s => ?_⟩
  · simp only [exec_convLos, execConvLos, due, domainOf_setChan]
  · simp only [exec_convLos, execConvLos, notDue]
  · exact ⟨_, execConvCalStale_due due, latch_mem_raiseLatched .., told_raiseLatched ..⟩
  · refine ⟨_, exec_bgcalUpdate c s, ?_⟩
    by_cases due : ∃ u ∈ (chan s c).updates, u.1 ≤ sampleOrd s c
    · obtain ⟨caps, draft, applied, unsynced⟩ := calDue_due due
      rw [applied]
      refine ⟨rfl, fun _ => ⟨rfl, fun h => ?_⟩, fun notDue => ?_⟩
      · rw [unsynced h]
      · obtain ⟨u, hu, le⟩ := due
        exact absurd le (Nat.not_le.2 (notDue u hu))
    · rw [calDue_notDue (by simpa using due)]
      exact ⟨rfl, fun h => absurd h due, fun _ => rfl⟩

end Sys2Proof.Machine
end

section
/-! PROOFS. Window, mask and cue commands: what an accepted one answers and leaves (R205, R228, R231, R239, R256), and how a host task
reaches its sheets (R43, R236). -/
namespace Sys2Proof.Machine

/-! ### Commands with and without AT_ORDINAL -/

section
variable {c : CmdSpec} {run : State → Packet → Nat → List Byte → Option Nat → Ran} {p : Packet} {s : State}

/-- An accepted AT_ORDINAL packet executes with its cue ordinal. -/
theorem runPacket_acceptedAt (h : accepted c p s = true) (at_ : pktAt p = true) :
    runPacket c run p s =
      let r := run (consume s p) p p.inst.toNat (ownOf p) (some (fld (payloadOf p) 0 8))
      completed c.opcode p r.1 r.2.1 r.2.2 := by
  rw [runPacket_accepted h, if_pos at_]

/-- An accepted packet without AT_ORDINAL executes without a cue ordinal. -/
theorem runPacket_acceptedNow (h : accepted c p s = true) (now : pktAt p = false) :
    runPacket c run p s =
      let r := run (consume s p) p p.inst.toNat (ownOf p) none
      completed c.opcode p r.1 r.2.1 r.2.2 := by
  rw [runPacket_accepted h, now]; rfl

end

@[simp] theorem consume_cue (s : State) (p : Packet) : (consume s p).cue = s.cue := rfl

/-! ### Windows (R205) -/

theorem exec_xfWindowLoad (p : Packet) (s : State) :
    exec (.xfWindowLoad p) s = .next (runPacket specXfWindowLoad runXfWindowLoad p s) := rfl

theorem exec_xfWindowRead (p : Packet) (s : State) :
    exec (.xfWindowRead p) s = .next (runPacket specXfWindowRead runXfWindowRead p s) := rfl

/-! ### Masks (R228) -/

theorem exec_maskLoad (p : Packet) (s : State) : exec (.maskLoad p) s = .next (runPacket specMaskLoad runMaskLoad p s) := rfl

theorem exec_maskRead (p : Packet) (s : State) : exec (.maskRead p) s = .next (runPacket specMaskRead runMaskRead p s) := rfl

theorem exec_maskSwap (p : Packet) (s : State) : exec (.maskSwap p) s = .next (runPacket specMaskSwap runMaskSwap p s) := rfl

/-- Changing an element of a list writes one value there: what the change makes of the element that stands there. -/
theorem lmod_eq_const {α : Type} (l : List α) (i : Nat) (f : α → α) (d : α) : lmod l i f = lmod l i (fun _ => f (nth l i d)) := by
  induction l generalizing i with
  | nil => rfl
  | cons x l ih =>
    cases i with
    | zero => rfl
    | succ i => exact congrArg (x :: ·) (ih i)

/-- A comparator with the entries of a MASK_LOAD written to the shadow buffer of the table that it names. -/
def maskLoaded (own : List Byte) (k : Mask) : Mask :=
  let l := (List.range (fld own 2 2)).map (fun i => (fld own 4 4 + i, fld own (8 + 2 * i) 2))
  if k.active = 0 then
    if fld own 0 1 = 0 then { k with upper1 := tputAll k.upper1 l (fun _ => 65535) }
    else { k with lower1 := tputAll k.lower1 l (fun _ => 0) }
  else
    if fld own 0 1 = 0 then { k with upper0 := tputAll k.upper0 l (fun _ => 65535) }
    else { k with lower0 := tputAll k.lower0 l (fun _ => 0) }

theorem runMaskLoad_eq (s : State) (p : Packet) (m : Nat) (own : List Byte) (at_ : Option Nat) :
    runMaskLoad s p m own at_ = (stOK, [], { s with cue := { s.cue with
      masks := lmod s.cue.masks m (fun _ => maskLoaded own (nth s.cue.masks m {})) } }) := by
  rw [← lmod_eq_const s.cue.masks m (maskLoaded own) {}]; rfl

/-- The table of a comparator that MASK_READ names, with the value of its unwritten entries: bit 0 of the name picks the lower table,
bit 1 the shadow buffer. -/
def maskTable (k : Mask) (name : Nat) : Tab Nat × Nat :=
  let buffer := if bit name 1 then 1 - k.active else k.active
  if bit name 0 then (if buffer = 0 then k.lower0 else k.lower1, 0) else (if buffer = 0 then k.upper0 else k.upper1, 65535)

theorem maskTable_upper {k : Mask} (active : k.active = 0) : maskTable k 0 = (k.upper0, 65535) := by
  simp [maskTable, bit, active]

theorem maskTable_shadowLower {k : Mask} (active : k.active = 0) : maskTable k 3 = (k.lower1, 0) := by
  simp [maskTable, bit, active]

theorem runMaskRead_eq (s : State) (p : Packet) (m : Nat) (own : List Byte) (at_ : Option Nat) :
    let table := maskTable (nth s.cue.masks m {}) (fld own 0 1)
    runMaskRead s p m own at_ = (stOK, own.take 8 ++
      (List.range (fld own 2 2)).flatMap (fun k => leBytes 2 (tgetD table.1 (fld own 4 4 + k) table.2)), s) := by
  simp only [runMaskRead, maskTable]
  cases bit (fld own 0 1) 0 <;> rfl

/-- A swap without AT_ORDINAL waits for the applied ordinal where its stream runs. -/
theorem runMaskSwap_running (s : State) (p : Packet) {m : Nat} (own : List Byte) (on : (stream s (maskStream s m)).running = true) :
    let c := appliedOrd s (xfChan s (maskStream s m))
    runMaskSwap s p m own none = (stOK, leBytes 8 c, { s with cue := { s.cue with
      masks := lmod s.cue.masks m (fun k => { k with swapAt := some c }) } }) := by
  simp only [runMaskSwap, on, if_true]; rfl

/-- A swap without AT_ORDINAL waits for the next start where its stream is stopped. -/
theorem runMaskSwap_stopped (s : State) (p : Packet) {m : Nat} (own : List Byte) (off : (stream s (maskStream s m)).running = false) :
    runMaskSwap s p m own none = (stOK, [], { s with cue := { s.cue with
      masks := lmod s.cue.masks m (fun k => { k with swapAtStart := true }) } }) := by
  simp only [runMaskSwap, off, Bool.false_eq_true, if_false]

/-! ### Cue sheets (R231, R239) -/

theorem exec_cueLoad (p : Packet) (s : State) : exec (.cueLoad p) s = .next (runPacket specCueLoad runCueLoad p s) := rfl

theorem exec_cueRead (p : Packet) (s : State) : exec (.cueRead p) s = .next (runPacket specCueRead runCueRead p s) := rfl

theorem exec_cueTask (p : Packet) (s : State) : exec (.cueTask p) s = .next (runPacket specCueTask runCueTask p s) := rfl

theorem exec_cueHost (p : Packet) (s : State) : exec (.cueHost p) s = .next (runPacket specCueHost runCueHost p s) := rfl

theorem sheetOf_setSheet_same (s : State) {i : Nat} (f : Sheet → Sheet) (h : i < s.cue.sheets.length) :
    sheetOf (setSheet s i f) i = f (sheetOf s i) := nth_lmod_same _ i f {} h

theorem sheetOf_setSheet_other (s : State) {i j : Nat} (f : Sheet → Sheet) (h : j ≠ i) :
    sheetOf (setSheet s i f) j = sheetOf s j := nth_lmod_other _ f {} h

/-- t differs from s in its cue sheets alone, and has as many. -/
structure SheetsOnly (s t : State) : Prop where
  rest : t = { s with cue := { s.cue with sheets := t.cue.sheets } }
  length : t.cue.sheets.length = s.cue.sheets.length

theorem SheetsOnly.refl (s : State) : SheetsOnly s s := ⟨rfl, rfl⟩

theorem SheetsOnly.trans {s t u : State} (h : SheetsOnly s t) (k : SheetsOnly t u) : SheetsOnly s u :=
  ⟨by rw [k.rest, h.rest], k.length.trans h.length⟩

theorem SheetsOnly.played {s t : State} (h : SheetsOnly s t) : t.cue.played = s.cue.played := by rw [h.rest]

theorem SheetsOnly.replaying {s t : State} (h : SheetsOnly s t) : replaying t = replaying s := by rw [h.rest]; rfl

theorem sheetsOnly_setSheet (s : State) (i : Nat) (f : Sheet → Sheet) : SheetsOnly s (setSheet s i f) := ⟨rfl, lmod_length _ i f⟩

/-- What a sheet rehearses anew for work from an ordinal on: a strike where a checkpoint lies past it (R43). -/
theorem rehearse_eq (s : State) (i ord : Nat) : ∃ checks, rehearse s i ord = setSheet s i (fun sh => { sh with
    checks := checks
    strikes := if (sheetOf s i).checks.any (fun c => decide (ord < c.1)) then satU 64 (sh.strikes + 1) else sh.strikes }) := ⟨_, rfl⟩

/-! ### A task that reaches its sheets (R236) -/

/-- b is the sheet a after a task has reached it: the task waits behind the others, the checkpoints are made anew, and work
rehearsed past the task's ordinal is struck. -/
def TaskReached (t : Task) (a b : Sheet) : Prop :=
  b = { a with
    tasks := a.tasks ++ [t]
    checks := b.checks
    strikes := if a.checks.any (fun c => decide (t.ord < c.1)) then satU 64 (a.strikes + 1) else a.strikes }

theorem sheetsOnly_addTask (s : State) (i : Nat) (t : Task) : SheetsOnly s (addTask s i t) := by
  unfold addTask; split
  · exact .refl s
  · obtain ⟨checks, h⟩ := rehearse_eq (setSheet s i (fun sh => { sh with tasks := sh.tasks ++ [t] })) i t.ord
    rw [h]
    exact (sheetsOnly_setSheet s i _).trans (sheetsOnly_setSheet _ i _)

theorem sheetOf_addTask_other (s : State) {i j : Nat} (t : Task) (h : j ≠ i) : sheetOf (addTask s i t) j = sheetOf s j := by
  unfold addTask; split
  · rfl
  · exact (sheetOf_setSheet_other _ _ h).trans (sheetOf_setSheet_other _ _ h)

theorem sheetOf_addTask_same {s : State} {i : Nat} (t : Task) (quiet : replaying s = false) (h : i < s.cue.sheets.length) :
    TaskReached t (sheetOf s i) (sheetOf (addTask s i t) i) := by
  have added := sheetOf_setSheet_same s (fun sh => { sh with tasks := sh.tasks ++ [t] }) h
  obtain ⟨checks, rehearsed⟩ := rehearse_eq (setSheet s i (fun sh => { sh with tasks := sh.tasks ++ [t] })) i t.ord
  simp only [addTask, quiet, Bool.false_and, Bool.false_eq_true, if_false]
  rw [rehearsed, sheetOf_setSheet_same _ _ (by rwa [(sheetsOnly_setSheet s i _).length]), added]
  rfl

/-- A task of the host at an ordinal: it comes no earlier than the oldest ordinal not yet played. -/
def taskAt (s : State) (input n : Nat) (timed : Bool) : Task := { ord := Nat.max n s.cue.played, input, src := 0, timed }

theorem SheetsOnly.taskAt {s t : State} (h : SheetsOnly s t) (input n : Nat) (timed : Bool) :
    taskAt t input n timed = taskAt s input n timed := by
  simp only [Machine.taskAt, h.played]

/-- A task that goes to several sheets reaches each of them once, and no other. -/
theorem tasks_reach (input n : Nat) (timed : Bool) (l : List Nat) (once : l.Nodup) (s : State) (quiet : replaying s = false) :
    let t := l.foldl (fun s i => addTask s i (taskAt s input n timed)) s
    SheetsOnly s t ∧ ∀ i, i < s.cue.sheets.length →
      (i ∈ l → TaskReached (taskAt s input n timed) (sheetOf s i) (sheetOf t i)) ∧ (i ∉ l → sheetOf t i = sheetOf s i) := by
  induction l generalizing s with
  | nil => exact ⟨.refl s, fun i _ => ⟨fun h => absurd h List.not_mem_nil, fun _ => rfl⟩⟩
  | cons j l ih =>
    obtain ⟨notLater, once⟩ := List.nodup_cons.1 once
    have first := sheetsOnly_addTask s j (taskAt s input n timed)
    obtain ⟨rest, sheets⟩ := ih once (addTask s j (taskAt s input n timed)) (first.replaying.trans quiet)
    rw [first.taskAt] at sheets
    refine ⟨first.trans rest, fun i hi => ?_⟩
    obtain ⟨reached, kept⟩ := sheets i (by rwa [first.length])
    rw [List.foldl_cons, List.mem_cons]
    by_cases hij : i = j
    · subst hij
      refine ⟨fun _ => ?_, fun h => absurd (.inl rfl) h⟩
      rw [kept notLater]
      exact sheetOf_addTask_same _ quiet hi
    · rw [sheetOf_addTask_other s _ hij] at reached kept
      exact ⟨fun h => reached (h.resolve_left hij), fun h => kept (fun k => h (.inr k))⟩

theorem mem_setBits {n v i : Nat} : i ∈ setBits n v ↔ i < n ∧ bit v i = true := by simp [setBits]

/-- A host task reaches the sheets whose bits are set, and changes nothing else. -/
theorem hostTask_reaches (s : State) (sheets input n : Nat) (timed : Bool) (quiet : replaying s = false) :
    let t := hostTask s sheets input n timed
    SheetsOnly s t ∧ ∀ i, i < s.cue.sheets.length →
      (i < 8 ∧ bit sheets i = true → TaskReached (taskAt s input n timed) (sheetOf s i) (sheetOf t i)) ∧
      (¬ (i < 8 ∧ bit sheets i = true) → sheetOf t i = sheetOf s i) := by
  simp only [← mem_setBits]
  exact tasks_reach input n timed (setBits 8 sheets) (List.nodup_range.filter _) s quiet

/-- Settles O46: each accepted command's run; MASK_LOAD's by what it makes of its comparator, MASK_SWAP's by whether its stream runs,
CUE_TASK's by its task reaching each sheet that it names once. -/
theorem windowsMasksAndCues : Obligations.WindowsMasksAndCues := by
  refine ⟨fun p s => ⟨fun h => ?_, fun h => ?_, fun h _ => ?_, fun h => ?_, fun h => ⟨fun at_ => ?_, fun now on => ?_, fun now off => ?_⟩⟩,
    fun p s => ⟨fun h => ?_, fun h => ?_, fun h => ⟨fun at_ => ?_, fun now quiet => ?_⟩, fun h => ⟨fun at_ => ?_, fun now => ?_⟩⟩⟩
  · rw [exec_xfWindowLoad, runPacket_accepted h]; rfl
  · rw [exec_xfWindowRead, runPacket_accepted h]; rfl
  · refine ⟨maskLoaded (ownOf p) (nth s.cue.masks p.inst.toNat {}), ?_, fun t a => ?_, fun t a => ?_, fun t a => ?_, fun t a => ?_⟩
    · rw [exec_maskLoad, runPacket_accepted h, runMaskLoad_eq]; rfl
    all_goals simp [maskLoaded, t, a]
  · refine ⟨_, by rw [exec_maskRead, runPacket_accepted h, runMaskRead_eq]; rfl, fun t a => ?_, fun t a => ?_⟩
    · rw [t, consume_cue, maskTable_upper a]
    · rw [t, consume_cue, maskTable_shadowLower a]
  · rw [exec_maskSwap, runPacket_acceptedAt h at_]; rfl
  · rw [exec_maskSwap, runPacket_acceptedNow h now, runMaskSwap_running (consume s p) p _ on]; rfl
  · rw [exec_maskSwap, runPacket_acceptedNow h now, runMaskSwap_stopped (consume s p) p _ off]; rfl
  · rw [exec_cueLoad, runPacket_accepted h]; rfl
  · rw [exec_cueRead, runPacket_accepted h]; rfl
  · rw [exec_cueTask, runPacket_acceptedAt h at_]; rfl
  · obtain ⟨only, sheets⟩ := hostTask_reaches (consume s p) (fld (ownOf p) 0 1) (fld (ownOf p) 1 1) (appliedOrd s (cueChan s)) true quiet
    refine ⟨_, by rw [exec_cueTask, runPacket_acceptedNow h now]; rfl, only.rest, fun i hi => ?_⟩
    obtain ⟨reached, kept⟩ := sheets i hi
    split
    · next named => exact reached named
    · next other => exact kept other
  · rw [exec_cueHost, runPacket_acceptedAt h at_]; rfl
  · rw [exec_cueHost, runPacket_acceptedNow h now]; rfl

end Sys2Proof.Machine
end
